-- ==== Sys2Proof/Word.lean ====
section
/-! DEFINITION. The bit-vector widths of the block (spec/00_scope.md R10): an octet of the frame, a nibble of it,
a 16-bit checksum word, a 32-bit register. -/

namespace Sys2Proof

/-- An octet of the frame buffer (R15). -/
abbrev Octet := BitVec 8

/-- One hexadecimal digit of the frame (R15). -/
abbrev Nibble := BitVec 4

/-- A 16-bit checksum word, and every 16-bit register. -/
abbrev Half := BitVec 16

/-- A 32-bit register or command word (R32, R120). -/
abbrev Word := BitVec 32

end Sys2Proof
end

