-- ==== Sys2Proof/Config.lean ====
section
/-! DEFINITION. What an implementation of the block fixes (spec/00_scope.md R8), the constants, and the free value
of the buffer's octets after power-on (spec/10_state.md R58). -/

namespace Sys2Proof.Config

/-- The parameters of one block, fixed for its life (R8). ADDR_BITS follows from FRAME_BYTES (Machine/Bus.lean);
CMD_LATENCY is the list `turns` of the state. -/
structure Params where
  /-- FRAME_BYTES, the octets in the frame buffer. -/
  frameBytes : Nat
deriving DecidableEq, Repr

/-- FRAME_BYTES at its default, 2048 (R8). -/
def Params.default : Params := ⟨2048⟩

/-- The constant the ID register reads: the ASCII codes of "ICE1" (R34). -/
def idValue : Word := 0x49434531#32

/-- Offset of the first octet of the frame buffer in the block's address space (spec/20_memory.md R90). -/
def bufferBase : Nat := 0x1000

/-- FREE VALUE (R58; 93_implementation_defined.md U1; log 1): the octet that power-on number `epoch` left in
`F[i]`. It has no body, so nothing can be proved of it. -/
opaque powerOnOctet (epoch i : Nat) : Octet

end Sys2Proof.Config
end

