-- ==== Sys2Proof/Syntax.lean ====
section
/-! DEFINITION. The commands: one constructor per row of spec/opcode_table.json (spec/30_encoding.md R127). -/

namespace Sys2Proof

/-- The 15 commands. Only CS.ADDW and CS.ADDR carry an operand in the command word (R122); all others read their
operands from registers (R125). -/
inductive Instr where
  /-- NOP (R260). -/
  | nop
  /-- X.NIB: extract a nibble range (R152). -/
  | xNib
  /-- X.BIT: extract a bit range (R153). -/
  | xBit
  /-- DEC.ETH: decode the Ethernet header (R173). -/
  | decEth
  /-- DEC.IP: decode the IPv4 header (R182). -/
  | decIp
  /-- DEC.TCP: decode the TCP header and the segment boundaries (R194). -/
  | decTcp
  /-- CS.CLR: clear the accumulator (R215). -/
  | csClr
  /-- CS.ADDW imm: add one word (R216, R123). -/
  | csAddw (imm : Half)
  /-- CS.ADDR (`skip` false) and CS.ADDR.S (`skip` true): add the words of a nibble range (R217, R124). -/
  | csAddr (skip : Bool)
  /-- CS.ADDPH: add the six pseudo-header words (R218). -/
  | csAddph
  /-- CS.FIN: complement the accumulator (R219). -/
  | csFin
  /-- PH.BUILD: construct the TCP pseudo-header (R221). -/
  | phBuild
  /-- CHK.IP: compute and compare the IP header checksum (R223). -/
  | chkIp
  /-- CHK.TCP: compute and compare the TCP checksum (R225). -/
  | chkTcp
  /-- DECODE: decode the whole frame and verify both checksums (R261). -/
  | decodeFrame
deriving DecidableEq, Repr

end Sys2Proof
end

