-- ==== Sys2Proof/Machine/State.lean ====
section
/-! DEFINITION. The state of the block as plain data (spec/10_state.md), the inputs from outside, the ways a step can
stop, and the state after power-on. Registers are held at the width of their used bits (R33); the bits above read 0
(R32). Registers written together by one command stand together in one structure. -/

namespace Sys2Proof.Machine

/-- Why the machine stops with a fault. -/
inductive Fault where
  /-- Raised by a host access whose offset is not below 2^ADDR_BITS: the bus has no such offset (R90; log 8). Safe:
  nothing is claimed of such an access. -/
  | noSuchOffset (offset : Nat)
deriving DecidableEq, Repr

/-- Why the machine gives no meaning. -/
inductive Refusal where
  /-- Raised by exec for an instruction that has no meaning yet. Safe. -/
  | notModelled (mnemonic : String)
  /-- Raised by a host access that R96 does not admit: "what the hardware does with it is unspecified, and a model
  refuses a host program that makes one" (log 9). Safe: nothing is claimed of such a program. -/
  | accessNotAdmitted (offset : Nat)
deriving DecidableEq, Repr

/-- The errors of a command (spec/60_exceptions.md R301); their codes are `CmdError.code`. -/
inductive CmdError where
  /-- A field asked for with no value (R306). -/
  | missingValue
  /-- A range past the frame, or a truncated TCP segment (R307). -/
  | outOfRange
  /-- An odd nibble count for byte grouping (R308). -/
  | oddLength
  /-- EtherType not 0x0800 (R309). -/
  | notIpPacket
  /-- IP protocol not 6 (R310). -/
  | notTcpPacket
  /-- Input too short for a fixed-offset read, or an inconsistent length field (R311). -/
  | malformedInput
  /-- A reserved command word (R312). -/
  | illegalCommand
  /-- A command run before the result it needs is valid (R313). -/
  | notDecoded
  /-- FRAME_LEN above FRAME_BYTES, or an operand outside its allowed values (R314). -/
  | badOperand
deriving DecidableEq, Repr

/-- The stages of DECODE, in their order (spec/43_frame_and_control.md R261). -/
inductive Stage where
  | decEth
  | decIp
  | decTcp
  | phBuild
  | chkIp
  | chkTcp
deriving DecidableEq, Repr

/-- The registers of R33 by name. -/
inductive Reg where
  | id | param | ctrl | cmd | status | errCmd | frameLen | argStart | argLen | argSkip
  | acc | csumRes | xResLo | xResHi | ipCsumCalc | tcpCsumCalc
  | ethDstHi | ethDstLo | ethSrcHi | ethSrcLo | ethType | ethPayOff | ethPayLen
  | ipVer | ipIhl | ipHlen | ipTos | ipTotlen | ipId | ipFlags | ipFragoff | ipTtl | ipProto | ipCsum | ipSrc | ipDst
  | ipPayOff | ipPayLen
  | tcpSport | tcpDport | tcpSeq | tcpAck | tcpDoff | tcpHlen | tcpFlags | tcpWin | tcpCsum | tcpUrg
  | tcpSegOff | tcpSegLen | tcpPayOff | tcpPayLen | padOff | padLen
  | phW0 | phW1 | phW2 | phW3 | phW4 | phW5
deriving DecidableEq, Repr

/-- The two agents (R30). -/
inductive Agent where
  | host
  | engine
deriving DecidableEq, Repr

/-- What reaches the block from outside: the host's bus accesses (R96, the operations of spec/30_encoding.md R132),
its WAIT, and the platform's power-on reset (spec/70_reset_and_hazards.md R340). Offsets are block-relative. -/
inductive Input where
  /-- A 32-bit write. -/
  | w32 (offset : Nat) (v : Word)
  /-- A 16-bit write (never admitted, R96). -/
  | w16 (offset : Nat) (v : Half)
  /-- An 8-bit write. -/
  | w8 (offset : Nat) (v : Octet)
  /-- A 32-bit read. -/
  | r32 (offset : Nat)
  /-- A 16-bit read (never admitted, R96). -/
  | r16 (offset : Nat)
  /-- An 8-bit read. -/
  | r8 (offset : Nat)
  /-- WAIT: read STATUS repeatedly until BUSY = 0 (R132). -/
  | wait
  /-- The power-on reset (R340). -/
  | powerOnReset
deriving DecidableEq, Repr

/-- What the bus returns to a read: a word, or an octet on data bits 7 to 0 (R94, R95). -/
inductive BusData where
  | word (v : Word)
  | octet (v : Octet)
deriving DecidableEq, Repr

/-- STATUS (R38). Bit 3 and bits 31 to 19 are reserved and hold nothing. -/
structure Status where
  /-- BUSY, bit 0 (R39). -/
  busy : Bool
  /-- DONE, bit 1, W1C (R40). -/
  done : Bool
  /-- ERR, bit 2, W1C (R41). -/
  err : Bool
  /-- ERRCODE, bits 7 to 4 (R42). -/
  errCode : BitVec 4
  /-- ETH_V, bit 8 (R43). -/
  ethV : Bool
  /-- IP_V, bit 9 (R43). -/
  ipV : Bool
  /-- TCP_V, bit 10 (R43). -/
  tcpV : Bool
  /-- PH_V, bit 11 (R43). -/
  phV : Bool
  /-- IP_CK_V, bit 12 (R43). -/
  ipCkV : Bool
  /-- TCP_CK_V, bit 13 (R43). -/
  tcpCkV : Bool
  /-- IP_OK, bit 14 (R44). -/
  ipOk : Bool
  /-- TCP_OK, bit 15 (R44). -/
  tcpOk : Bool
  /-- FRAME_V, bit 16 (R43). -/
  frameV : Bool
  /-- CMD_OVR, bit 17, W1C (R45). -/
  cmdOvr : Bool
  /-- WR_IGN, bit 18, W1C (R45). -/
  wrIgn : Bool
deriving DecidableEq, Repr

/-- The Ethernet result registers (R53). -/
structure EthRegs where
  dstHi : Half
  dstLo : Word
  srcHi : Half
  srcLo : Word
  etherType : Half
  payOff : Half
  payLen : Half
deriving DecidableEq, Repr

/-- The IP result registers (R54). -/
structure IpRegs where
  ver : BitVec 4
  ihl : BitVec 4
  hlen : BitVec 6
  tos : Octet
  totlen : Half
  ident : Half
  flags : BitVec 3
  fragOff : BitVec 13
  ttl : Octet
  proto : Octet
  csum : Half
  src : Word
  dst : Word
  payOff : Half
  payLen : Half
deriving DecidableEq, Repr

/-- The TCP result registers (R55) and the boundary registers (R56). -/
structure TcpRegs where
  sport : Half
  dport : Half
  seq : Word
  ack : Word
  doff : BitVec 4
  hlen : BitVec 6
  flags : BitVec 12
  win : Half
  csum : Half
  urg : Half
  segOff : Half
  segLen : Half
  payOff : Half
  payLen : Half
  padOff : Half
  padLen : Half
deriving DecidableEq, Repr

/-- The pseudo-header words (R57). -/
structure PhRegs where
  w0 : Half
  w1 : Half
  w2 : Half
  w3 : Half
  w4 : Half
  w5 : Half
deriving DecidableEq, Repr

/-- The frame buffer: the octets the host has written since power-on, by index, indexes strictly rising
(`Memory.wf`). An index that is not listed reads as no value at all, so no entry can equal it; the engine and the
bus then see the free value of R58 (`State.octet`; logs 1 and 16). -/
abbrev Memory := List (Nat × Octet)

/-- The state of the block, and beside it the model's own fields that stand for the outside world. -/
structure State where
  /-- FRAME_BYTES, fixed for the machine (R8), read through PARAM (R35). -/
  params : Config.Params
  /-- CTRL.IE (R36). -/
  ctrlIE : Bool
  /-- CMD, the last accepted command word (R37). -/
  cmd : Word
  /-- STATUS (R38). -/
  status : Status
  /-- ERR_CMD (R46). -/
  errCmd : Word
  /-- FRAME_LEN (R47). -/
  frameLen : Half
  /-- ARG_START (R48). -/
  argStart : Word
  /-- ARG_LEN (R48). -/
  argLen : Word
  /-- ARG_SKIP (R48). -/
  argSkip : Word
  /-- ACC (R49). -/
  acc : Half
  /-- CSUM_RES (R50). -/
  csumRes : Half
  /-- X_RES_LO (R51). -/
  xResLo : Word
  /-- X_RES_HI (R51). -/
  xResHi : Word
  /-- IP_CSUM_CALC (R52). -/
  ipCsumCalc : Half
  /-- TCP_CSUM_CALC (R52). -/
  tcpCsumCalc : Half
  /-- The Ethernet result registers (R53). -/
  eth : EthRegs
  /-- The IP result registers (R54). -/
  ip : IpRegs
  /-- The TCP result and boundary registers (R55, R56). -/
  tcp : TcpRegs
  /-- PH_W0 to PH_W5 (R57). -/
  ph : PhRegs
  /-- The frame buffer F (R58). -/
  buffer : Memory
  /-- The pending command, hidden state (R59a). -/
  pending : Option Word
  /-- The stage of a pending DECODE that has run last, hidden state (R59b; log 11). -/
  stage : Option Stage
  /-- MODEL: which power-on this is, the argument of the free value of R58 (log 1). -/
  powerOns : Nat
  /-- MODEL: the inputs still to come, the oldest first (R103; log 3). -/
  inputs : List Input
  /-- MODEL: which agent moves next, for the open interleaving of R353 (log 4). -/
  turns : List Agent
  /-- MODEL: what the bus has returned to the host's reads, the latest first (log 10). -/
  readData : List BusData
deriving DecidableEq, Repr

/-- STATUS after reset: 0 (R341). -/
def Status.reset : Status where
  busy := false
  done := false
  err := false
  errCode := 0
  ethV := false
  ipV := false
  tcpV := false
  phV := false
  ipCkV := false
  tcpCkV := false
  ipOk := false
  tcpOk := false
  frameV := false
  cmdOvr := false
  wrIgn := false

/-- The Ethernet registers after reset (R341). -/
def EthRegs.reset : EthRegs := ⟨0, 0, 0, 0, 0, 0, 0⟩

/-- The IP registers after reset (R341). -/
def IpRegs.reset : IpRegs := ⟨0, 0, 0, 0, 0, 0, 0, 0, 0, 0, 0, 0, 0, 0, 0⟩

/-- The TCP and boundary registers after reset (R341). -/
def TcpRegs.reset : TcpRegs := ⟨0, 0, 0, 0, 0, 0, 0, 0, 0, 0, 0, 0, 0, 0, 0, 0⟩

/-- PH_W0 to PH_W5 after reset (R341). -/
def PhRegs.reset : PhRegs := ⟨0, 0, 0, 0, 0, 0⟩

/-- A block with parameters `p` right after its first power-on (R341, R342): every register 0, nothing pending, no
octet written. The model's own fields are empty (logs 3, 4, 10). -/
def State.powerOn (p : Config.Params) : State where
  params := p
  ctrlIE := false
  cmd := 0
  status := Status.reset
  errCmd := 0
  frameLen := 0
  argStart := 0
  argLen := 0
  argSkip := 0
  acc := 0
  csumRes := 0
  xResLo := 0
  xResHi := 0
  ipCsumCalc := 0
  tcpCsumCalc := 0
  eth := EthRegs.reset
  ip := IpRegs.reset
  tcp := TcpRegs.reset
  ph := PhRegs.reset
  buffer := []
  pending := none
  stage := none
  powerOns := 0
  inputs := []
  turns := []
  readData := []

/-- The state after reset of a block with the default FRAME_BYTES (R341; log 2). -/
def State.reset : State := State.powerOn Config.Params.default

end Sys2Proof.Machine
end

