-- ==== Sys2Proof/Machine/Flags.lean ====
section
/-! DEFINITION. STATUS as a word and its bits (spec/10_state.md R38), the error codes (spec/60_exceptions.md R301),
the invalidation sets (spec/10_state.md R60, R61) and the interrupt output (spec/60_exceptions.md R319). -/

namespace Sys2Proof.Machine

/-- The code of an error in STATUS.ERRCODE (R301). -/
def CmdError.code (e : CmdError) : BitVec 4 :=
  match e with
  | .missingValue => 1
  | .outOfRange => 2
  | .oddLength => 3
  | .notIpPacket => 4
  | .notTcpPacket => 5
  | .malformedInput => 6
  | .illegalCommand => 7
  | .notDecoded => 8
  | .badOperand => 9

/-- One bit of a register, as a word with that bit alone. -/
def flagAt (bit : Nat) (b : Bool) : Word :=
  if b then 1#32 <<< bit else 0#32

/-- STATUS as the host reads it (R38); reserved bits read 0. -/
def Status.toWord (st : Status) : Word :=
  flagAt 0 st.busy ||| flagAt 1 st.done ||| flagAt 2 st.err ||| (st.errCode.setWidth 32 <<< 4)
    ||| flagAt 8 st.ethV ||| flagAt 9 st.ipV ||| flagAt 10 st.tcpV ||| flagAt 11 st.phV
    ||| flagAt 12 st.ipCkV ||| flagAt 13 st.tcpCkV ||| flagAt 14 st.ipOk ||| flagAt 15 st.tcpOk
    ||| flagAt 16 st.frameV ||| flagAt 17 st.cmdOvr ||| flagAt 18 st.wrIgn

/-- A host write of `v` to STATUS: each W1C field whose bit in `v` is 1 is cleared, nothing else changes (R38). -/
def Status.writeOneToClear (v : Word) (st : Status) : Status :=
  { st with
    done := st.done && !v.getLsbD 1
    err := st.err && !v.getLsbD 2
    cmdOvr := st.cmdOvr && !v.getLsbD 17
    wrIgn := st.wrIgn && !v.getLsbD 18 }

/-- Clear every valid bit, IP_OK and TCP_OK: the invalidation of R61, and the set of DEC.ETH and DECODE (R60). -/
def Status.invalidateAll (st : Status) : Status :=
  { st with
    ethV := false
    ipV := false
    tcpV := false
    phV := false
    ipCkV := false
    tcpCkV := false
    ipOk := false
    tcpOk := false
    frameV := false }

/-- The invalidation set of each command that has one (R60). DECODE has the set of DEC.ETH. -/
def Status.invalidate (command : Stage) (st : Status) : Status :=
  match command with
  | .decEth => st.invalidateAll
  | .decIp =>
    { st with
      ipV := false
      tcpV := false
      phV := false
      ipCkV := false
      tcpCkV := false
      ipOk := false
      tcpOk := false
      frameV := false }
  | .decTcp => { st with tcpV := false, phV := false, tcpCkV := false, tcpOk := false, frameV := false }
  | .phBuild => { st with phV := false, tcpCkV := false, tcpOk := false, frameV := false }
  | .chkIp => { st with ipCkV := false, ipOk := false, frameV := false }
  | .chkTcp => { st with tcpCkV := false, tcpOk := false, frameV := false }

/-- The interrupt output (R319). -/
def State.irq (s : State) : Bool :=
  s.ctrlIE && s.status.done

end Sys2Proof.Machine
end

