-- ==== Sys2Proof/Machine/Ops.lean ====
section
/-! DEFINITION. The shared operations: the frame buffer, recording a completion or an error (spec/60_exceptions.md
R305), accepting a command (spec/70_reset_and_hazards.md R346) and the two resets (R341 to R343).

An error is not a trap (R300): no handler, no vector, no mode; `completeError` is the whole of taking one, and there
is no return operation (R316): after it the block accepts the next command as after any completion. -/

namespace Sys2Proof.Machine

/-! ### The frame buffer -/

/-- The octet listed at index `i`, if the host has written one since power-on. -/
def Memory.read (m : Memory) (i : Nat) : Option Octet :=
  match m with
  | [] => none
  | (j, v) :: rest => if j = i then some v else Memory.read rest i

/-- Write `v` at index `i`, keeping the indexes rising. -/
def Memory.write (m : Memory) (i : Nat) (v : Octet) : Memory :=
  match m with
  | [] => [(i, v)]
  | (j, w) :: rest =>
    if i < j then (i, v) :: (j, w) :: rest
    else if i = j then (i, v) :: rest
    else (j, w) :: Memory.write rest i v

/-- Write octets at `i`, `i + 1`, and so on. -/
def Memory.writeOctets (m : Memory) (i : Nat) (vs : List Octet) : Memory :=
  match vs with
  | [] => m
  | v :: rest => Memory.writeOctets (m.write i v) (i + 1) rest

/-- The canonical form: indexes strictly rising. An unlisted index reads as no value, which no entry equals, so the
form has no second clause (log 16). -/
def Memory.wf (m : Memory) : Bool :=
  match m with
  | [] => true
  | (j, _) :: rest => (match rest with
    | [] => true
    | (k, _) :: _ => decide (j < k)) && Memory.wf rest

/-- Every listed index is below `n`. -/
def Memory.below (m : Memory) (n : Nat) : Bool :=
  m.all fun c => decide (c.1 < n)

/-- The octet `F[i]` (spec/00_scope.md R11): what the host wrote last, or, if it has written nothing there since
power-on, the free value of R58 (log 1). -/
def State.octet (s : State) (i : Nat) : Octet :=
  (s.buffer.read i).getD (Config.powerOnOctet s.powerOns i)

/-! ### STATUS updates -/

/-- Replace STATUS and nothing else. -/
def State.withStatus (s : State) (st : Status) : State :=
  { s with status := st }

/-- The invalidation of R60 at the start of a command. -/
def State.invalidate (s : State) (command : Stage) : State :=
  s.withStatus (s.status.invalidate command)

/-! ### Completing a command -/

/-- How the rule of a command ends, before the completion is recorded: with its commit, or with an error and the
state that R304 lets a failing command leave. -/
inductive Result where
  | done (s : State)
  | failed (e : CmdError) (s : State)
deriving DecidableEq, Repr

/-- Go on with `next` unless the rule has failed. -/
def Result.andThen (r : Result) (next : State → Result) : Result :=
  match r with
  | .done s => next s
  | .failed e s => .failed e s

/-- The completion recording on success (R305); the command is no longer pending (R347). -/
def State.completeDone (s : State) : State :=
  { s with
    status := { s.status with errCode := 0, busy := false, done := true }
    pending := none
    stage := none }

/-- The completion recording of command word `c` on error `e` (R305): ERRCODE, ERR and ERR_CMD beside BUSY and DONE;
no address is recorded and nothing is entered. -/
def State.completeError (s : State) (c : Word) (e : CmdError) : State :=
  { s with
    status := { s.status with errCode := e.code, err := true, busy := false, done := true }
    errCmd := c
    pending := none
    stage := none }

/-- The completion recording of command word `c` (R305). -/
def Result.complete (r : Result) (c : Word) : State :=
  match r with
  | .done s => s.completeDone
  | .failed e s => s.completeError c e

/-- The engine's step for command word `c` whose rule ended as `r` (R347): always a next state. -/
def finish (c : Word) (r : Result) : Host.Outcome State Fault Refusal :=
  .next (r.complete c)

/-- The frame-length check of the commands that read the frame (spec/30_encoding.md R128), before anything else. -/
def checkFrameLen (body : State → Result) (s : State) : Result :=
  if s.params.frameBytes < s.frameLen.toNat then .failed .badOperand s else body s

/-! ### Accepting a command, and the resets -/

/-- Acceptance of command word `c` (R346). -/
def State.accept (s : State) (c : Word) : State :=
  { s with
    cmd := c
    status := { s.status with busy := true, done := false }
    pending := some c }

/-- Soft reset (R343): every register at its reset value, the pending command discarded, the frame buffer kept. -/
def State.softReset (s : State) : State :=
  { State.powerOn s.params with
    buffer := s.buffer
    powerOns := s.powerOns
    inputs := s.inputs
    turns := s.turns
    readData := s.readData }

/-- Power-on reset (R341, R342): as the soft reset, and the buffer's octets are unspecified again: no octet is
listed, and the free value is drawn anew (log 1). -/
def State.powerOnReset (s : State) : State :=
  { s.softReset with
    buffer := []
    powerOns := s.powerOns + 1 }

/-- Make word `c` the command the very next step completes: its acceptance (R346), and the engine moves next. It
stands for the host's write of `c` to CMD (log 6). -/
def State.placeCommand (s : State) (c : Word) : State :=
  { s.accept c with turns := [] }

end Sys2Proof.Machine
end

