-- ==== Sys2Proof/Machine/Operands.lean ====
section
/-! DEFINITION. The views of the frame and big-endian extraction from it (spec/00_scope.md R11, R12), the range checks
of the accessor (spec/40_accessor.md R150) and the 64-bit result register (spec/10_state.md R51). -/

namespace Sys2Proof.Machine

/-- Nibble `i` of the frame (R11): the high nibble of its octet when `i` is even, the low one when it is odd. -/
def State.nib (s : State) (i : Nat) : Nibble :=
  if i % 2 = 0 then (s.octet (i / 2)).extractLsb' 4 4 else (s.octet (i / 2)).extractLsb' 0 4

/-- Bit `b` of the frame (R11): bit 0 is the most significant bit of octet 0. -/
def State.bit (s : State) (b : Nat) : Bool :=
  (s.nib (b / 4)).getLsbD (3 - b % 4)

/-- The `n` digits from position `i`, the first the most significant, as a number in base `base` (R12). -/
def bigEndian (base : Nat) (digit : Nat → Nat) (i : Nat) (n : Nat) : Nat :=
  match n with
  | 0 => 0
  | n + 1 => bigEndian base digit i n * base + digit (i + n)

/-- `BE(i, n)` (R12). -/
def State.be (s : State) (i n : Nat) : Nat :=
  bigEndian 256 (fun k => (s.octet k).toNat) i n

/-- `NBE(i, n)` (R12). -/
def State.nbe (s : State) (i n : Nat) : Nat :=
  bigEndian 16 (fun k => (s.nib k).toNat) i n

/-- `BBE(b, n)` (R12). -/
def State.bbe (s : State) (b n : Nat) : Nat :=
  bigEndian 2 (fun k => (s.bit k).toNat) b n

/-- `BE(i, 2)` as a 16-bit value. -/
def State.be16 (s : State) (i : Nat) : Half :=
  BitVec.ofNat 16 (s.be i 2)

/-- `BE(i, 4)` as a 32-bit value. -/
def State.be32 (s : State) (i : Nat) : Word :=
  BitVec.ofNat 32 (s.be i 4)

/-- The range of `len` units from `start` ends past a sequence of `total` units (R150); the sum does not wrap
(spec/30_encoding.md R125). -/
abbrev pastEnd (start len : Word) (total : Nat) : Prop :=
  total < start.toNat + len.toNat

/-- X_RES_HI `||` X_RES_LO (R51). -/
def State.xRes (s : State) : BitVec 64 :=
  s.xResHi ++ s.xResLo

/-- Write a value to X_RES, its upper half to X_RES_HI and its lower half to X_RES_LO (R51, R152, R153). -/
def State.setXRes (s : State) (v : Nat) : State :=
  { s with
    xResHi := (BitVec.ofNat 64 v).extractLsb' 32 32
    xResLo := (BitVec.ofNat 64 v).extractLsb' 0 32 }

end Sys2Proof.Machine
end

