-- ==== Sys2Proof/Machine/Bus.lean ====
section
/-! DEFINITION. The host's bus (spec/20_memory.md): the address space, the admitted accesses, register reads and
writes (spec/10_state.md R33 to R48), the buffer's byte lanes, and the busy rules for writes
(spec/70_reset_and_hazards.md R346, R348, R349). -/

namespace Sys2Proof.Machine

/-! ### The address space -/

/-- ADDR_BITS: the smallest n with 2^n >= 0x1000 + FRAME_BYTES (spec/00_scope.md R8). -/
def addrBits (p : Config.Params) : Nat :=
  Nat.log2 (Config.bufferBase + p.frameBytes - 1) + 1

/-- First offset after the buffer region (R90). -/
def bufferEnd (p : Config.Params) : Nat :=
  Config.bufferBase + p.frameBytes

/-- A 32-bit access at this offset is admitted (R96, R97; log 7): 4-aligned, and not across the buffer's end. -/
def admitted32 (p : Config.Params) (offset : Nat) : Bool :=
  offset % 4 == 0
    && (decide (offset < Config.bufferBase) || decide (offset + 4 ≤ bufferEnd p) || decide (bufferEnd p ≤ offset))

/-- An 8-bit access at this offset is admitted (R96, R97; log 7): not in the register region. -/
def admitted8 (offset : Nat) : Bool :=
  decide (Config.bufferBase ≤ offset)

/-- The offset of a register (R33). -/
def Reg.offset (r : Reg) : Nat :=
  match r with
  | .id => 0x000
  | .param => 0x004
  | .ctrl => 0x008
  | .cmd => 0x00C
  | .status => 0x010
  | .errCmd => 0x014
  | .frameLen => 0x018
  | .argStart => 0x01C
  | .argLen => 0x020
  | .argSkip => 0x024
  | .acc => 0x028
  | .csumRes => 0x02C
  | .xResLo => 0x030
  | .xResHi => 0x034
  | .ipCsumCalc => 0x038
  | .tcpCsumCalc => 0x03C
  | .ethDstHi => 0x040
  | .ethDstLo => 0x044
  | .ethSrcHi => 0x048
  | .ethSrcLo => 0x04C
  | .ethType => 0x050
  | .ethPayOff => 0x054
  | .ethPayLen => 0x058
  | .ipVer => 0x060
  | .ipIhl => 0x064
  | .ipHlen => 0x068
  | .ipTos => 0x06C
  | .ipTotlen => 0x070
  | .ipId => 0x074
  | .ipFlags => 0x078
  | .ipFragoff => 0x07C
  | .ipTtl => 0x080
  | .ipProto => 0x084
  | .ipCsum => 0x088
  | .ipSrc => 0x08C
  | .ipDst => 0x090
  | .ipPayOff => 0x094
  | .ipPayLen => 0x098
  | .tcpSport => 0x0A0
  | .tcpDport => 0x0A4
  | .tcpSeq => 0x0A8
  | .tcpAck => 0x0AC
  | .tcpDoff => 0x0B0
  | .tcpHlen => 0x0B4
  | .tcpFlags => 0x0B8
  | .tcpWin => 0x0BC
  | .tcpCsum => 0x0C0
  | .tcpUrg => 0x0C4
  | .tcpSegOff => 0x0C8
  | .tcpSegLen => 0x0CC
  | .tcpPayOff => 0x0D0
  | .tcpPayLen => 0x0D4
  | .padOff => 0x0D8
  | .padLen => 0x0DC
  | .phW0 => 0x0E0
  | .phW1 => 0x0E4
  | .phW2 => 0x0E8
  | .phW3 => 0x0EC
  | .phW4 => 0x0F0
  | .phW5 => 0x0F4

/-- The registers in the order of R33. -/
def Reg.all : List Reg :=
  [.id, .param, .ctrl, .cmd, .status, .errCmd, .frameLen, .argStart, .argLen, .argSkip] ++
  [.acc, .csumRes, .xResLo, .xResHi, .ipCsumCalc, .tcpCsumCalc] ++
  [.ethDstHi, .ethDstLo, .ethSrcHi, .ethSrcLo, .ethType, .ethPayOff, .ethPayLen] ++
  [.ipVer, .ipIhl, .ipHlen, .ipTos, .ipTotlen, .ipId, .ipFlags, .ipFragoff, .ipTtl, .ipProto, .ipCsum, .ipSrc] ++
  [.ipDst, .ipPayOff, .ipPayLen] ++
  [.tcpSport, .tcpDport, .tcpSeq, .tcpAck, .tcpDoff, .tcpHlen, .tcpFlags, .tcpWin, .tcpCsum, .tcpUrg] ++
  [.tcpSegOff, .tcpSegLen, .tcpPayOff, .tcpPayLen, .padOff, .padLen] ++
  [.phW0, .phW1, .phW2, .phW3, .phW4, .phW5]

/-- The register at an offset of the register region; none at a reserved offset (R33). -/
def Reg.at? (offset : Nat) : Option Reg :=
  Reg.all.find? fun r => r.offset == offset

/-! ### Reads -/

/-- What a read of a register returns (R33 to R57): its used bits, zeros above them (R32). -/
def State.readReg (s : State) (r : Reg) : Word :=
  match r with
  | .id => Config.idValue
  | .param => BitVec.ofNat 32 s.params.frameBytes
  | .ctrl => flagAt 0 s.ctrlIE
  | .cmd => s.cmd
  | .status => s.status.toWord
  | .errCmd => s.errCmd
  | .frameLen => s.frameLen.setWidth 32
  | .argStart => s.argStart
  | .argLen => s.argLen
  | .argSkip => s.argSkip
  | .acc => s.acc.setWidth 32
  | .csumRes => s.csumRes.setWidth 32
  | .xResLo => s.xResLo
  | .xResHi => s.xResHi
  | .ipCsumCalc => s.ipCsumCalc.setWidth 32
  | .tcpCsumCalc => s.tcpCsumCalc.setWidth 32
  | .ethDstHi => s.eth.dstHi.setWidth 32
  | .ethDstLo => s.eth.dstLo
  | .ethSrcHi => s.eth.srcHi.setWidth 32
  | .ethSrcLo => s.eth.srcLo
  | .ethType => s.eth.etherType.setWidth 32
  | .ethPayOff => s.eth.payOff.setWidth 32
  | .ethPayLen => s.eth.payLen.setWidth 32
  | .ipVer => s.ip.ver.setWidth 32
  | .ipIhl => s.ip.ihl.setWidth 32
  | .ipHlen => s.ip.hlen.setWidth 32
  | .ipTos => s.ip.tos.setWidth 32
  | .ipTotlen => s.ip.totlen.setWidth 32
  | .ipId => s.ip.ident.setWidth 32
  | .ipFlags => s.ip.flags.setWidth 32
  | .ipFragoff => s.ip.fragOff.setWidth 32
  | .ipTtl => s.ip.ttl.setWidth 32
  | .ipProto => s.ip.proto.setWidth 32
  | .ipCsum => s.ip.csum.setWidth 32
  | .ipSrc => s.ip.src
  | .ipDst => s.ip.dst
  | .ipPayOff => s.ip.payOff.setWidth 32
  | .ipPayLen => s.ip.payLen.setWidth 32
  | .tcpSport => s.tcp.sport.setWidth 32
  | .tcpDport => s.tcp.dport.setWidth 32
  | .tcpSeq => s.tcp.seq
  | .tcpAck => s.tcp.ack
  | .tcpDoff => s.tcp.doff.setWidth 32
  | .tcpHlen => s.tcp.hlen.setWidth 32
  | .tcpFlags => s.tcp.flags.setWidth 32
  | .tcpWin => s.tcp.win.setWidth 32
  | .tcpCsum => s.tcp.csum.setWidth 32
  | .tcpUrg => s.tcp.urg.setWidth 32
  | .tcpSegOff => s.tcp.segOff.setWidth 32
  | .tcpSegLen => s.tcp.segLen.setWidth 32
  | .tcpPayOff => s.tcp.payOff.setWidth 32
  | .tcpPayLen => s.tcp.payLen.setWidth 32
  | .padOff => s.tcp.padOff.setWidth 32
  | .padLen => s.tcp.padLen.setWidth 32
  | .phW0 => s.ph.w0.setWidth 32
  | .phW1 => s.ph.w1.setWidth 32
  | .phW2 => s.ph.w2.setWidth 32
  | .phW3 => s.ph.w3.setWidth 32
  | .phW4 => s.ph.w4.setWidth 32
  | .phW5 => s.ph.w5.setWidth 32

/-- The 32-bit word of buffer octets at index `i`, lane k holding octet `i + k` (R94). -/
def State.laneWord (s : State) (i : Nat) : Word :=
  s.octet (i + 3) ++ (s.octet (i + 2) ++ (s.octet (i + 1) ++ s.octet i))

/-- What an admitted 32-bit read returns (R94, R95, R97). -/
def State.read32 (s : State) (offset : Nat) : Word :=
  if offset < Config.bufferBase then
    match Reg.at? offset with
    | some r => s.readReg r
    | none => 0
  else if offset < bufferEnd s.params then s.laneWord (offset - Config.bufferBase)
  else 0

/-- What an admitted 8-bit read returns (R94, R97). -/
def State.read8 (s : State) (offset : Nat) : Octet :=
  if Config.bufferBase ≤ offset ∧ offset < bufferEnd s.params then s.octet (offset - Config.bufferBase) else 0

/-- Hand the data of a read to the host (log 10); a read changes nothing of the block (R98). -/
def State.returnData (s : State) (d : BusData) : State :=
  { s with readData := d :: s.readData }

/-! ### Writes -/

/-- A write that BUSY = 1 drops sets WR_IGN and changes nothing else; otherwise `write` happens (R349). -/
def State.unlessBusy (s : State) (write : State → State) : State :=
  if s.status.busy then s.withStatus { s.status with wrIgn := true } else write s

/-- A host write of octets to the buffer from index `i` (R61, R99, R349). -/
def State.writeBuffer (s : State) (i : Nat) (vs : List Octet) : State :=
  s.unlessBusy fun s => { s with buffer := s.buffer.writeOctets i vs, status := s.status.invalidateAll }

/-- A host write to CTRL (R36): SRST performs the soft reset, whatever IE is; otherwise IE is written. -/
def State.writeCtrl (s : State) (v : Word) : State :=
  if v.getLsbD 1 then s.softReset else { s with ctrlIE := v.getLsbD 0 }

/-- A host write to CMD: accepted, or dropped while BUSY = 1 with CMD_OVR set (R37, R346, R348). -/
def State.writeCmd (s : State) (v : Word) : State :=
  if s.status.busy then s.withStatus { s.status with cmdOvr := true } else s.accept v

/-- A host write to a register; a read-only register ignores it (R32, R33, R349). -/
def State.writeReg (s : State) (r : Reg) (v : Word) : State :=
  match r with
  | .ctrl => s.writeCtrl v
  | .cmd => s.writeCmd v
  | .status => s.withStatus (s.status.writeOneToClear v)
  | .frameLen => s.unlessBusy fun s => { s with frameLen := v.setWidth 16, status := s.status.invalidateAll }
  | .argStart => s.unlessBusy fun s => { s with argStart := v }
  | .argLen => s.unlessBusy fun s => { s with argLen := v }
  | .argSkip => s.unlessBusy fun s => { s with argSkip := v }
  | _ => s

/-- The octets of a 32-bit write, lane 0 first (R94). -/
def lanesOf (v : Word) : List Octet :=
  [v.extractLsb' 0 8, v.extractLsb' 8 8, v.extractLsb' 16 8, v.extractLsb' 24 8]

/-- An admitted 32-bit write (R94, R95, R97). -/
def State.write32 (s : State) (offset : Nat) (v : Word) : State :=
  if offset < Config.bufferBase then
    match Reg.at? offset with
    | some r => s.writeReg r v
    | none => s
  else if offset < bufferEnd s.params then s.writeBuffer (offset - Config.bufferBase) (lanesOf v)
  else s

/-- An admitted 8-bit write (R94, R97). -/
def State.write8 (s : State) (offset : Nat) (v : Octet) : State :=
  if Config.bufferBase ≤ offset ∧ offset < bufferEnd s.params then s.writeBuffer (offset - Config.bufferBase) [v]
  else s

/-! ### An access -/

/-- An access at `offset`: a fault where the bus has no such offset (log 8), a refusal where R96 does not admit it
(log 9), else its effect. -/
def busAccess (s : State) (offset : Nat) (admitted : Bool) (effect : State) :
    Host.Outcome State Fault Refusal :=
  if 2 ^ addrBits s.params ≤ offset then .fault (.noSuchOffset offset)
  else if admitted then .next effect
  else .refused (.accessNotAdmitted offset)

/-- WAIT (spec/30_encoding.md R132) reads STATUS; while BUSY = 1 it is still to come (log 15). -/
def State.poll (s : State) : State :=
  (if s.status.busy then { s with inputs := .wait :: s.inputs } else s).returnData (.word (s.readReg .status))

/-- Perform one input (R96, R103). -/
def State.perform (s : State) (a : Input) : Host.Outcome State Fault Refusal :=
  match a with
  | .w32 offset v => busAccess s offset (admitted32 s.params offset) (s.write32 offset v)
  | .w16 offset _ => busAccess s offset false s
  | .w8 offset v => busAccess s offset (admitted8 offset) (s.write8 offset v)
  | .r32 offset => busAccess s offset (admitted32 s.params offset) (s.returnData (.word (s.read32 offset)))
  | .r16 offset => busAccess s offset false s
  | .r8 offset => busAccess s offset (admitted8 offset) (s.returnData (.octet (s.read8 offset)))
  | .wait => .next s.poll
  | .powerOnReset => .next s.powerOnReset

end Sys2Proof.Machine
end

