-- ==== Sys2Proof/WellFormed.lean ====
section
/-! DEFINITION. What is well formed: the parameters of a block (spec/00_scope.md R8) and the four fields of a
command word (spec/30_encoding.md R121, R122). A term of Instr needs no check of its own: its operands are typed at
the width of their field, so every instruction is well formed. -/

namespace Sys2Proof

/-- FRAME_BYTES is any integer from 54 to 61440 (R8). -/
def Config.Params.wf (p : Config.Params) : Bool :=
  decide (54 ≤ p.frameBytes) && decide (p.frameBytes ≤ 61440)

/-- The fields of a command word (R121). -/
structure Fields where
  /-- OP, bits 7 to 0. -/
  op : BitVec 8
  /-- S, bit 8. -/
  skip : Bool
  /-- RSV, bits 15 to 9. -/
  rsv : BitVec 7
  /-- IMM16, bits 31 to 16. -/
  imm : Half
deriving DecidableEq, Repr

/-- The OP values of R127. -/
def Fields.opcodes : List (BitVec 8) :=
  [0x00#8, 0x01#8, 0x02#8, 0x10#8, 0x11#8, 0x12#8, 0x20#8, 0x21#8, 0x22#8, 0x23#8, 0x24#8, 0x28#8, 0x29#8, 0x2A#8,
   0x30#8]

/-- The fields are those of a command, not of a reserved word (R121, R122, R129): OP is in the map, RSV is 0, S only
in format S, IMM16 only in format I. -/
def Fields.wf (f : Fields) : Bool :=
  Fields.opcodes.contains f.op && f.rsv == 0#7 && (!f.skip || f.op == 0x22#8) && (f.imm == 0#16 || f.op == 0x21#8)

end Sys2Proof
end

