-- ==== Sys2Proof/Decode.lean ====
section
/-! DEFINITION. Decoding a command word (spec/30_encoding.md R126), total on all 32-bit words and rejecting by name,
and the encoder after it. A command is one 32-bit word written to CMD; it is never laid out as bytes in a memory
(R120, spec/20_memory.md R107), so the opcode table's numbering of bits is the register's own (R95). -/

namespace Sys2Proof

/-- The check of R126 that a reserved word fails. -/
inductive Reserved where
  /-- OP is no value of R127. -/
  | unknownOp
  /-- RSV is not 0. -/
  | rsvNonZero
  /-- S is 1 outside CS.ADDR. -/
  | skipOutsideAddr
  /-- IMM16 is not 0 outside CS.ADDW. -/
  | immOutsideAddw
deriving DecidableEq, Repr

/-- What a command word stands for. -/
inductive Decoded where
  /-- It selects this command. -/
  | command (i : Instr)
  /-- It is reserved, for this reason: the first check of R126 that fails. -/
  | reserved (why : Reserved)
deriving DecidableEq, Repr

/-- The fields of a command word (R121). -/
def fieldsOf (c : Word) : Fields where
  op := c.extractLsb' 0 8
  skip := c.getLsbD 8
  rsv := c.extractLsb' 9 7
  imm := c.extractLsb' 16 16

/-- The opcode map (R127): each OP value with its command, the operand fields given. -/
def opcodeMap (skip : Bool) (imm : Half) : List (BitVec 8 × Instr) :=
  [(0x00#8, .nop), (0x01#8, .xNib), (0x02#8, .xBit), (0x10#8, .decEth), (0x11#8, .decIp), (0x12#8, .decTcp),
   (0x20#8, .csClr), (0x21#8, .csAddw imm), (0x22#8, .csAddr skip), (0x23#8, .csAddph), (0x24#8, .csFin),
   (0x28#8, .phBuild), (0x29#8, .chkIp), (0x2A#8, .chkTcp), (0x30#8, .decodeFrame)]

/-- The command an OP value names, if it names one. -/
def commandOf (op : BitVec 8) (skip : Bool) (imm : Half) : Option Instr :=
  ((opcodeMap skip imm).find? fun row => row.1 == op).map fun row => row.2

/-- The checks of R126 on the fields, in its order. -/
def decodeFields (f : Fields) : Decoded :=
  match commandOf f.op f.skip f.imm with
  | none => .reserved .unknownOp
  | some i =>
    if f.rsv ≠ 0#7 then .reserved .rsvNonZero
    else if f.skip = true ∧ f.op ≠ 0x22#8 then .reserved .skipOutsideAddr
    else if f.imm ≠ 0#16 ∧ f.op ≠ 0x21#8 then .reserved .immOutsideAddw
    else .command i

/-- Decode a command word (R126). -/
def decode (c : Word) : Decoded :=
  decodeFields (fieldsOf c)

/-- Lay four fields out as a command word (R121). -/
def wordOf (f : Fields) : Word :=
  f.imm ++ (f.rsv ++ (BitVec.ofBool f.skip ++ f.op))

/-- The OP value of a command (R127). -/
def opcodeOf (i : Instr) : BitVec 8 :=
  match i with
  | .nop => 0x00#8
  | .xNib => 0x01#8
  | .xBit => 0x02#8
  | .decEth => 0x10#8
  | .decIp => 0x11#8
  | .decTcp => 0x12#8
  | .csClr => 0x20#8
  | .csAddw _ => 0x21#8
  | .csAddr _ => 0x22#8
  | .csAddph => 0x23#8
  | .csFin => 0x24#8
  | .phBuild => 0x28#8
  | .chkIp => 0x29#8
  | .chkTcp => 0x2A#8
  | .decodeFrame => 0x30#8

/-- The S field of a command (R124): 1 only in CS.ADDR.S. -/
def skipOf (i : Instr) : Bool :=
  match i with
  | .csAddr skip => skip
  | .nop | .xNib | .xBit | .decEth | .decIp | .decTcp | .csClr | .csAddw _ | .csAddph | .csFin | .phBuild | .chkIp
  | .chkTcp | .decodeFrame => false

/-- The IMM16 field of a command (R123): not 0 only in CS.ADDW. -/
def immOf (i : Instr) : Half :=
  match i with
  | .csAddw imm => imm
  | .nop | .xNib | .xBit | .decEth | .decIp | .decTcp | .csClr | .csAddr _ | .csAddph | .csFin | .phBuild | .chkIp
  | .chkTcp | .decodeFrame => 0#16

/-- The word of a command (R122, R131). -/
def encode (i : Instr) : Word :=
  wordOf ⟨opcodeOf i, skipOf i, 0#7, immOf i⟩

/-- A row of the opcode table as a command word: the low `nbits` bits of `w`, zeros above them (log 18). -/
def tableWord (nbits w : Nat) : Word :=
  BitVec.ofNat 32 (w % 2 ^ nbits)

/-- The command the decoder reads from an opcode-table word. -/
def decodeTableWord (nbits w : Nat) : Option Instr :=
  match decode (tableWord nbits w) with
  | .command i => some i
  | .reserved _ => none

end Sys2Proof
end

