-- ==== Sys2Proof/Machine/Accessor.lean ====
section
/-! DEFINITION. The accessor commands X.NIB and X.BIT (spec/40_accessor.md). -/

namespace Sys2Proof.Machine

/-- The rule of X.NIB after the frame-length check (R152). -/
def xNibBody (s : State) : Result :=
  if s.argLen.toNat = 0 then .failed .missingValue s
  else if 16 < s.argLen.toNat then .failed .badOperand s
  else if pastEnd s.argStart s.argLen (2 * s.frameLen.toNat) then .failed .outOfRange s
  else .done (s.setXRes (s.nbe s.argStart.toNat s.argLen.toNat))

/-- X.NIB (R152). -/
def execXNib (s : State) : Host.Outcome State Fault Refusal :=
  finish (encode .xNib) (checkFrameLen xNibBody s)

/-- The rule of X.BIT after the frame-length check (R153). -/
def xBitBody (s : State) : Result :=
  if s.argLen.toNat = 0 then .failed .missingValue s
  else if 64 < s.argLen.toNat then .failed .badOperand s
  else if pastEnd s.argStart s.argLen (8 * s.frameLen.toNat) then .failed .outOfRange s
  else .done (s.setXRes (s.bbe s.argStart.toNat s.argLen.toNat))

/-- X.BIT (R153). -/
def execXBit (s : State) : Host.Outcome State Fault Refusal :=
  finish (encode .xBit) (checkFrameLen xBitBody s)

end Sys2Proof.Machine
end

