-- ==== Sys2Proof/Machine/Checksum.lean ====
section
/-! DEFINITION. The one's-complement sum, the raw engine commands, the pseudo-header and the two checks
(spec/42_checksum.md). -/

namespace Sys2Proof.Machine

/-! ### The one's-complement sum -/

/-- The loop of `fold` (R210) with at most `fuel` rounds; each round lowers `a`, so `a` rounds are enough. -/
def foldLoop (fuel a : Nat) : Nat :=
  match fuel with
  | 0 => a
  | fuel + 1 => if 0xFFFF < a then foldLoop fuel (a % 0x10000 + a / 0x10000) else a

/-- End-around carry (R210). -/
def fold (a : Nat) : Nat :=
  foldLoop a a

/-- Add one word to the accumulator (R211). -/
def accAdd (acc w : Half) : Half :=
  BitVec.ofNat 16 (fold (acc.toNat + w.toNat))

/-- Add words one after the other, each folded (R211). -/
def accSum (acc : Half) (ws : List Half) : Half :=
  ws.foldl accAdd acc

/-- The checksum of an accumulator (R214). -/
def checksumOf (acc : Half) : Half :=
  ~~~acc

/-! ### The words of each sum -/

/-- Word `j` of a range of `len` nibbles from nibble `start`; a last word of two nibbles is padded below (R213). -/
def State.rangeWord (s : State) (start len j : Nat) : Half :=
  if 4 * j + 4 ≤ len then BitVec.ofNat 16 (s.nbe (start + 4 * j) 4)
  else BitVec.ofNat 16 (s.nbe (start + 4 * j) 2 * 256)

/-- The words of a range that CS.ADDR adds: all, or all but the one that starts at nibble `k` (R217). -/
def State.rangeWords (s : State) (skip : Bool) (start len k : Nat) : List Half :=
  ((List.range ((len + 3) / 4)).filter fun j => !(skip && start + 4 * j == k)).map (s.rangeWord start len)

/-- The six words of the pseudo-header (R220). -/
def PhRegs.words (ph : PhRegs) : List Half :=
  [ph.w0, ph.w1, ph.w2, ph.w3, ph.w4, ph.w5]

/-- The words of the 20-octet IP header at octet `p`, less the checksum's own, word 5 (R222). -/
def State.ipHeaderWords (s : State) (p : Nat) : List Half :=
  ((List.range 10).filter fun k => k != 5).map fun k => s.be16 (p + 2 * k)

/-- Word `j` of the segment of `len` octets at octet `t`, an odd last octet padded below (R224). -/
def State.segmentWord (s : State) (t len j : Nat) : Half :=
  s.octet (t + 2 * j) ++ (if 2 * j + 1 < len then s.octet (t + 2 * j + 1) else 0#8)

/-- The words of a segment, less the checksum's own, word 8 (R224). -/
def State.segmentWords (s : State) (t len : Nat) : List Half :=
  ((List.range ((len + 1) / 2)).filter fun j => j != 8).map (s.segmentWord t len)

/-! ### Raw engine commands -/

/-- CS.CLR (R215). -/
def execCsClr (s : State) : Host.Outcome State Fault Refusal :=
  finish (encode .csClr) (.done { s with acc := 0 })

/-- CS.ADDW (R216). -/
def execCsAddw (imm : Half) (s : State) : Host.Outcome State Fault Refusal :=
  finish (encode (.csAddw imm)) (.done { s with acc := accAdd s.acc imm })

/-- The skip operand of CS.ADDR.S is outside the range or not on a word boundary (R217). -/
abbrev badSkip (start len k : Nat) : Prop :=
  k < start ∨ start + len ≤ k ∨ (k - start) % 4 ≠ 0

/-- The rule of CS.ADDR after the frame-length check (R217). -/
def csAddrBody (skip : Bool) (s : State) : Result :=
  if pastEnd s.argStart s.argLen (2 * s.frameLen.toNat) then .failed .outOfRange s
  else if s.argLen.toNat % 2 = 1 then .failed .oddLength s
  else if skip = true ∧ badSkip s.argStart.toNat s.argLen.toNat s.argSkip.toNat then .failed .badOperand s
  else .done { s with
    acc := accSum s.acc (s.rangeWords skip s.argStart.toNat s.argLen.toNat s.argSkip.toNat) }

/-- CS.ADDR and CS.ADDR.S (R217). -/
def execCsAddr (skip : Bool) (s : State) : Host.Outcome State Fault Refusal :=
  finish (encode (.csAddr skip)) (checkFrameLen (csAddrBody skip) s)

/-- CS.ADDPH (R218). -/
def execCsAddph (s : State) : Host.Outcome State Fault Refusal :=
  finish (encode .csAddph)
    (if s.status.phV = false then .failed .notDecoded s
     else .done { s with acc := accSum s.acc s.ph.words })

/-- CS.FIN (R219). -/
def execCsFin (s : State) : Host.Outcome State Fault Refusal :=
  finish (encode .csFin) (.done { s with csumRes := checksumOf s.acc })

/-! ### The pseudo-header and the checks -/

/-- The pseudo-header of the IP and TCP registers (R220). -/
def State.phFields (s : State) : PhRegs where
  w0 := s.ip.src.extractLsb' 16 16
  w1 := s.ip.src.extractLsb' 0 16
  w2 := s.ip.dst.extractLsb' 16 16
  w3 := s.ip.dst.extractLsb' 0 16
  w4 := s.ip.proto.setWidth 16
  w5 := s.tcp.segLen

/-- The rule of PH.BUILD (R221). -/
def phBuildBody (s₀ : State) : Result :=
  let s := s₀.invalidate .phBuild
  if s.status.tcpV = false then .failed .notDecoded s
  else .done { s with ph := s.phFields, status := { s.status with phV := true } }

/-- PH.BUILD (R221). -/
def execPhBuild (s : State) : Host.Outcome State Fault Refusal :=
  finish (encode .phBuild) (phBuildBody s)

/-- The sum of CHK.IP, from 0 (R222, R223). -/
def State.ipSum (s : State) : Half :=
  accSum 0 (s.ipHeaderWords s.eth.payOff.toNat)

/-- The rule of CHK.IP after the frame-length check (R223); a mismatch is no error (R226). -/
def chkIpBody (s₀ : State) : Result :=
  let s := s₀.invalidate .chkIp
  let c := checksumOf s.ipSum
  if s.status.ipV = false then .failed .notDecoded s
  else .done { s with
    acc := s.ipSum
    csumRes := c
    ipCsumCalc := c
    status := { s.status with ipOk := c == s.ip.csum, ipCkV := true } }

/-- CHK.IP (R223). -/
def execChkIp (s : State) : Host.Outcome State Fault Refusal :=
  finish (encode .chkIp) (checkFrameLen chkIpBody s)

/-- The sum of CHK.TCP, from 0: the pseudo-header, then the segment (R224, R225). -/
def State.tcpSum (s : State) : Half :=
  accSum (accSum 0 s.ph.words) (s.segmentWords s.tcp.segOff.toNat s.tcp.segLen.toNat)

/-- The rule of CHK.TCP after the frame-length check (R225); a mismatch is no error (R226). -/
def chkTcpBody (s₀ : State) : Result :=
  let s := s₀.invalidate .chkTcp
  let c := checksumOf s.tcpSum
  if s.status.phV = false then .failed .notDecoded s
  else .done { s with
    acc := s.tcpSum
    csumRes := c
    tcpCsumCalc := c
    status := { s.status with tcpOk := c == s.tcp.csum, tcpCkV := true } }

/-- CHK.TCP (R225). -/
def execChkTcp (s : State) : Host.Outcome State Fault Refusal :=
  finish (encode .chkTcp) (checkFrameLen chkTcpBody s)

end Sys2Proof.Machine
end

