-- ==== Sys2Proof/Machine/Layers.lean ====
section
/-! DEFINITION. The layer decoders DEC.ETH, DEC.IP and DEC.TCP (spec/41_layer_decode.md). A body starts after the
command's own frame-length check, as a stage of DECODE does (spec/43_frame_and_control.md R261). -/

namespace Sys2Proof.Machine

/-! ### Ethernet -/

/-- The Ethernet registers of the frame (R170). -/
def State.ethFields (s : State) : EthRegs where
  dstHi := s.be16 0
  dstLo := s.be32 2
  srcHi := s.be16 6
  srcLo := s.be32 8
  etherType := s.be16 12
  payOff := 14
  payLen := BitVec.ofNat 16 (s.frameLen.toNat - 14)

/-- The rule of DEC.ETH after the frame-length check (R171, R172, R173). -/
def decEthBody (s₀ : State) : Result :=
  let s := s₀.invalidate .decEth
  if s.frameLen.toNat < 14 then .failed .malformedInput s
  else if s.be 12 2 ≠ 0x0800 then .failed .notIpPacket s
  else .done { s with eth := s.ethFields, status := { s.status with ethV := true } }

/-- DEC.ETH (R173). -/
def execDecEth (s : State) : Host.Outcome State Fault Refusal :=
  finish (encode .decEth) (checkFrameLen decEthBody s)

/-! ### IPv4 -/

/-- The IHL nibble of an IP header at octet `p` (R175). -/
def State.ihlAt (s : State) (p : Nat) : BitVec 4 :=
  (s.octet p).extractLsb' 0 4

/-- IP_HLEN of an IP header at octet `p`, in octets (R175). -/
def State.ipHlenAt (s : State) (p : Nat) : Nat :=
  4 * (s.ihlAt p).toNat

/-- The IP registers of an IP header at octet `p` (R174, R175, R177, R181). -/
def State.ipFields (s : State) (p : Nat) : IpRegs where
  ver := (s.octet p).extractLsb' 4 4
  ihl := s.ihlAt p
  hlen := BitVec.ofNat 6 (s.ipHlenAt p)
  tos := s.octet (p + 1)
  totlen := s.be16 (p + 2)
  ident := s.be16 (p + 4)
  flags := (s.be16 (p + 6)).extractLsb' 13 3
  fragOff := (s.be16 (p + 6)).extractLsb' 0 13
  ttl := s.octet (p + 8)
  proto := s.octet (p + 9)
  csum := s.be16 (p + 10)
  src := s.be32 (p + 12)
  dst := s.be32 (p + 16)
  payOff := BitVec.ofNat 16 (p + s.ipHlenAt p)
  payLen := BitVec.ofNat 16 (s.frameLen.toNat - (p + s.ipHlenAt p))

/-- The rule of DEC.IP after the frame-length check (R176, R178, R179, R180, R182). `FRAME_LEN - p` is a subtraction
of integers: where it would be negative it is below 20 too. -/
def decIpBody (s₀ : State) : Result :=
  let s := s₀.invalidate .decIp
  let p := s.eth.payOff.toNat
  if s.status.ethV = false then .failed .notDecoded s
  else if s.frameLen.toNat < p + 20 then .failed .malformedInput s
  else if s.octet (p + 9) ≠ 6 then .failed .notTcpPacket s
  else if (s.ihlAt p).toNat < 5 then .failed .malformedInput s
  else if s.frameLen.toNat < p + s.ipHlenAt p then .failed .malformedInput s
  else .done { s with ip := s.ipFields p, status := { s.status with ipV := true } }

/-- DEC.IP (R182). -/
def execDecIp (s : State) : Host.Outcome State Fault Refusal :=
  finish (encode .decIp) (checkFrameLen decIpBody s)

/-! ### TCP -/

/-- The data-offset nibble of a TCP header at octet `t` (R183). -/
def State.doffAt (s : State) (t : Nat) : BitVec 4 :=
  (s.octet (t + 12)).extractLsb' 4 4

/-- TCP_HLEN of a TCP header at octet `t`, in octets (R184). -/
def State.tcpHlenAt (s : State) (t : Nat) : Nat :=
  4 * (s.doffAt t).toNat

/-- The TCP and boundary registers of a segment of `len` octets at octet `t` (R183, R184, R189 to R191, R193). -/
def State.tcpFields (s : State) (t len : Nat) : TcpRegs where
  sport := s.be16 t
  dport := s.be16 (t + 2)
  seq := s.be32 (t + 4)
  ack := s.be32 (t + 8)
  doff := s.doffAt t
  hlen := BitVec.ofNat 6 (s.tcpHlenAt t)
  flags := (s.be16 (t + 12)).extractLsb' 0 12
  win := s.be16 (t + 14)
  csum := s.be16 (t + 16)
  urg := s.be16 (t + 18)
  segOff := BitVec.ofNat 16 t
  segLen := BitVec.ofNat 16 len
  payOff := BitVec.ofNat 16 (t + s.tcpHlenAt t)
  payLen := BitVec.ofNat 16 (len - s.tcpHlenAt t)
  padOff := BitVec.ofNat 16 (t + len)
  padLen := BitVec.ofNat 16 (s.frameLen.toNat - (t + len))

/-- The octets of the TCP segment by the IP registers: IP_TOTLEN - IP_HLEN (R185). -/
def State.segmentLen (s : State) : Nat :=
  s.ip.totlen.toNat - s.ip.hlen.toNat

/-- The rule of DEC.TCP after the frame-length check (R185 to R188, R194). -/
def decTcpBody (s₀ : State) : Result :=
  let s := s₀.invalidate .decTcp
  let t := s.ip.payOff.toNat
  if s.status.ipV = false then .failed .notDecoded s
  else if s.ip.totlen.toNat < s.ip.hlen.toNat then .failed .malformedInput s
  else if s.frameLen.toNat < t + s.segmentLen then .failed .outOfRange s
  else if s.segmentLen < 20 then .failed .malformedInput s
  else if (s.doffAt t).toNat < 5 ∨ s.segmentLen < s.tcpHlenAt t then .failed .malformedInput s
  else .done { s with tcp := s.tcpFields t s.segmentLen, status := { s.status with tcpV := true } }

/-- DEC.TCP (R194). -/
def execDecTcp (s : State) : Host.Outcome State Fault Refusal :=
  finish (encode .decTcp) (checkFrameLen decTcpBody s)

end Sys2Proof.Machine
end

