-- ==== Sys2Proof/Machine/FrameControl.lean ====
section
/-! DEFINITION. NOP and DECODE (spec/43_frame_and_control.md). -/

namespace Sys2Proof.Machine

/-- NOP (R260): nothing but the completion recording. -/
def execNop (s : State) : Host.Outcome State Fault Refusal :=
  finish (encode .nop) (.done s)

/-- The body a stage of DECODE runs: that of the command it is named after, from the line after its own frame-length
check (R261). -/
def Stage.body (st : Stage) (s : State) : Result :=
  match st with
  | .decEth => decEthBody s
  | .decIp => decIpBody s
  | .decTcp => decTcpBody s
  | .phBuild => phBuildBody s
  | .chkIp => chkIpBody s
  | .chkTcp => chkTcpBody s

/-- The stages of DECODE in order (R261). -/
def Stage.order : List Stage :=
  [.decEth, .decIp, .decTcp, .phBuild, .chkIp, .chkTcp]

/-- Run stages one after the other up to the first that fails (R261), each recorded in the hidden stage state
(spec/10_state.md R59b). -/
def runStages (stages : List Stage) (s : State) : Result :=
  match stages with
  | [] => .done s
  | st :: rest => (st.body s).andThen fun t => runStages rest { t with stage := some st }

/-- The rule of DECODE after the frame-length check (R261). -/
def decodeBody (s : State) : Result :=
  (runStages Stage.order (s.invalidate .decEth)).andThen fun t =>
    .done (t.withStatus { t.status with frameV := true })

/-- DECODE (R261). -/
def execDecodeFrame (s : State) : Host.Outcome State Fault Refusal :=
  finish (encode .decodeFrame) (checkFrameLen decodeBody s)

end Sys2Proof.Machine
end

