-- ==== Sys2Proof/Machine/Dispatch.lean ====
section
/-! DEFINITION. One arm per command (spec/30_encoding.md R127): the engine's completion step for it
(spec/70_reset_and_hazards.md R347). -/

namespace Sys2Proof.Machine

def exec (i : Instr) (s : State) : Host.Outcome State Fault Refusal :=
  match i with
  | .nop => Sys2Proof.Machine.execNop s
  | .xNib => Sys2Proof.Machine.execXNib s
  | .xBit => Sys2Proof.Machine.execXBit s
  | .decEth => Sys2Proof.Machine.execDecEth s
  | .decIp => Sys2Proof.Machine.execDecIp s
  | .decTcp => Sys2Proof.Machine.execDecTcp s
  | .csClr => Sys2Proof.Machine.execCsClr s
  | .csAddw imm => Sys2Proof.Machine.execCsAddw imm s
  | .csAddr skip => Sys2Proof.Machine.execCsAddr skip s
  | .csAddph => Sys2Proof.Machine.execCsAddph s
  | .csFin => Sys2Proof.Machine.execCsFin s
  | .phBuild => Sys2Proof.Machine.execPhBuild s
  | .chkIp => Sys2Proof.Machine.execChkIp s
  | .chkTcp => Sys2Proof.Machine.execChkTcp s
  | .decodeFrame => Sys2Proof.Machine.execDecodeFrame s

end Sys2Proof.Machine
end

