-- ==== Sys2Proof/Machine/Engine.lean ====
section
/-! DEFINITION. The moves of the two agents and whose turn it is (spec/70_reset_and_hazards.md R347, R353;
spec/20_memory.md R103). -/

namespace Sys2Proof.Machine

/-- The completion of command word `c` (R347): a reserved word raises IllegalCommand and has no other effect
(spec/30_encoding.md R126, R129), any other word runs its command. -/
def completeCommand (c : Word) (s : State) : Host.Outcome State Fault Refusal :=
  match decode c with
  | .reserved _ => finish c (.failed .illegalCommand s)
  | .command i => exec i s

/-- The engine's move: it completes the pending command; with none pending it has no step (R347). -/
def engineMove (s : State) : Host.Outcome State Fault Refusal :=
  match s.pending with
  | some c => completeCommand c s
  | none => .next s

/-- The host's move: its next access, if it has one (R103). -/
def hostMove (s : State) : Host.Outcome State Fault Refusal :=
  match s.inputs with
  | a :: rest => State.perform { s with inputs := rest } a
  | [] => .next s

/-- One move of the block and its surroundings. `turns` says who moves; when it is used up the engine moves as long as
a command is pending, so a pending command always completes (R353; log 4). An agent with nothing to do passes
(R344; log 5). -/
def advance (s : State) : Host.Outcome State Fault Refusal :=
  match s.turns with
  | .engine :: rest => engineMove { s with turns := rest }
  | .host :: rest => hostMove { s with turns := rest }
  | [] => if s.pending.isSome then engineMove s else hostMove s

end Sys2Proof.Machine
end

