-- ==== Sys2Proof/Machine/Step.lean ====
section
/-! DEFINITION. One step of the machine, and placing a command word where the very next step runs it. -/

namespace Sys2Proof.Machine

/-- One step: one completion by the engine, or one access by the host (spec/20_memory.md R103;
spec/70_reset_and_hazards.md R353). -/
def step (s : State) : Host.Outcome State Fault Refusal :=
  advance s

/-- The block does not fetch (spec/10_state.md R31): a command comes to it by a host write to CMD. `s` with the word
accepted (spec/70_reset_and_hazards.md R346) and the engine to move next (log 6). -/
def State.withFetchWord (s : State) (nbits w : Nat) : State :=
  s.placeCommand (tableWord nbits w)

end Sys2Proof.Machine
end

