-- ==== Sys2Proof/Machine/HostProgram.lean ====
section
/-! DEFINITION. The host's notation (spec/30_encoding.md R131 to R133): command syntax, host-program operations and
macros, each the list of inputs it expands to. -/

namespace Sys2Proof.Machine

/-- The mnemonic of a command in capitals (R131). -/
def mnemonic (i : Instr) : List Char :=
  match i with
  | .nop => ['N', 'O', 'P']
  | .xNib => ['X', '.', 'N', 'I', 'B']
  | .xBit => ['X', '.', 'B', 'I', 'T']
  | .decEth => ['D', 'E', 'C', '.', 'E', 'T', 'H']
  | .decIp => ['D', 'E', 'C', '.', 'I', 'P']
  | .decTcp => ['D', 'E', 'C', '.', 'T', 'C', 'P']
  | .csClr => ['C', 'S', '.', 'C', 'L', 'R']
  | .csAddw _ => ['C', 'S', '.', 'A', 'D', 'D', 'W']
  | .csAddr false => ['C', 'S', '.', 'A', 'D', 'D', 'R']
  | .csAddr true => ['C', 'S', '.', 'A', 'D', 'D', 'R', '.', 'S']
  | .csAddph => ['C', 'S', '.', 'A', 'D', 'D', 'P', 'H']
  | .csFin => ['C', 'S', '.', 'F', 'I', 'N']
  | .phBuild => ['P', 'H', '.', 'B', 'U', 'I', 'L', 'D']
  | .chkIp => ['C', 'H', 'K', '.', 'I', 'P']
  | .chkTcp => ['C', 'H', 'K', '.', 'T', 'C', 'P']
  | .decodeFrame => ['D', 'E', 'C', 'O', 'D', 'E']

/-- The operand of a command's syntax: a number in format I, nothing in the others (R131). -/
def syntaxOperand (i : Instr) : Option Nat :=
  match i with
  | .csAddw imm => some imm.toNat
  | .nop | .xNib | .xBit | .decEth | .decIp | .decTcp | .csClr | .csAddr _ | .csAddph | .csFin | .phBuild | .chkIp
  | .chkTcp | .decodeFrame => none

/-- The commands a syntax with this operand may name; the number of format I is at most 0xFFFF (R131). -/
def candidates (operand : Option Nat) : List Instr :=
  match operand with
  | some n => if n ≤ 0xFFFF then [.csAddw (BitVec.ofNat 16 n)] else []
  | none =>
    [.nop, .xNib, .xBit, .decEth, .decIp, .decTcp, .csClr, .csAddr false, .csAddr true, .csAddph, .csFin, .phBuild] ++
    [.chkIp, .chkTcp, .decodeFrame]

/-- A letter in capitals; a mnemonic is case-insensitive (R131). -/
def capital (c : Char) : Char :=
  if 97 ≤ c.toNat ∧ c.toNat ≤ 122 then Char.ofNat (c.toNat - 32) else c

/-- Assemble one command from its mnemonic, in capitals or not, and its operand (R131; log 19). -/
def assemble (name : List Char) (operand : Option Nat) : Option Instr :=
  (candidates operand).find? fun i => mnemonic i == name.map capital

/-! ### Macros -/

/-- `W32 REG, v` (R132). -/
def writeRegOp (r : Reg) (v : Word) : Input :=
  .w32 r.offset v

/-- `R32 REG` (R132). -/
def readRegOp (r : Reg) : Input :=
  .r32 r.offset

/-- `W32 BUF+a, v` (R132). -/
def writeBufOp (a : Nat) (v : Word) : Input :=
  .w32 (Config.bufferBase + a) v

/-- `W8 BUF+a, v` (R132). -/
def writeOctetOp (a : Nat) (v : Octet) : Input :=
  .w8 (Config.bufferBase + a) v

/-- `R8 BUF+a` (R132). -/
def readOctetOp (a : Nat) : Input :=
  .r8 (Config.bufferBase + a)

/-- `CMD m` (R132). -/
def cmdOp (i : Instr) : Input :=
  writeRegOp .cmd (encode i)

/-- `RUN m` (R133). -/
def runMacro (i : Instr) : List Input :=
  [cmdOp i, .wait]

/-- The buffer writes of LOADF from offset `a`, four octets each, missing octets 0 (R133). -/
def loadWrites (a : Nat) (bs : List Octet) : List Input :=
  match bs with
  | [] => []
  | [b₀] => [writeBufOp a (0#8 ++ (0#8 ++ (0#8 ++ b₀)))]
  | [b₀, b₁] => [writeBufOp a (0#8 ++ (0#8 ++ (b₁ ++ b₀)))]
  | [b₀, b₁, b₂] => [writeBufOp a (0#8 ++ (b₂ ++ (b₁ ++ b₀)))]
  | b₀ :: b₁ :: b₂ :: b₃ :: rest => writeBufOp a (b₃ ++ (b₂ ++ (b₁ ++ b₀))) :: loadWrites (a + 4) rest

/-- `LOADF b0 b1 ...` (R133). -/
def loadFrameMacro (bs : List Octet) : List Input :=
  loadWrites 0 bs ++ [writeRegOp .frameLen (BitVec.ofNat 32 bs.length)]

/-- `XNIB s, l` (R133). -/
def xNibMacro (start len : Word) : List Input :=
  [writeRegOp .argStart start, writeRegOp .argLen len] ++ runMacro .xNib

/-- `XBIT s, l` (R133). -/
def xBitMacro (start len : Word) : List Input :=
  [writeRegOp .argStart start, writeRegOp .argLen len] ++ runMacro .xBit

/-- `CSRANGE s, l` (R133). -/
def csRangeMacro (start len : Word) : List Input :=
  [writeRegOp .argStart start, writeRegOp .argLen len] ++ runMacro (.csAddr false)

/-- `CSRANGE s, l, k` (R133). -/
def csRangeSkipMacro (start len k : Word) : List Input :=
  [writeRegOp .argStart start, writeRegOp .argLen len, writeRegOp .argSkip k] ++ runMacro (.csAddr true)

/-- `CLRSTAT` (R133): clear DONE, ERR, CMD_OVR and WR_IGN. -/
def clrStatMacro : List Input :=
  [writeRegOp .status 0x00060006#32]

end Sys2Proof.Machine
end

