-- ==== Sys2Proof/Safety.lean ====
section
/-! DEFINITION. The terms the statements use: what every reachable state satisfies (the busy protocol and the buffer's
form, the dependencies of the valid bits, and that a valid bit describes the frame in the buffer), whose move a step
is, and how a completion is recorded, each written from the spec and not from the meanings. -/

namespace Sys2Proof.Machine

/-! ### Invariants -/

/-- The buffer is in canonical form inside FRAME_BYTES, the hidden state agrees with BUSY and CMD (spec/10_state.md
R59), DONE is 0 while BUSY is 1 (spec/70_reset_and_hazards.md R350), no stage is half done between steps (R352), and
ERRCODE is one of the codes that are written (spec/60_exceptions.md R301). -/
structure State.Protocol (s : State) : Prop where
  params : s.params.wf = true
  bufferWf : s.buffer.wf = true
  bufferBelow : s.buffer.below s.params.frameBytes = true
  busyPending : s.status.busy = s.pending.isSome
  pendingCmd : ∀ c, s.pending = some c → s.cmd = c
  busyNotDone : s.status.busy = true → s.status.done = false
  stageNone : s.stage = none
  errCode : s.status.errCode.toNat ≤ 9

/-- The valid-bit dependencies of R62. -/
structure State.ValidChain (s : State) : Prop where
  ip : s.status.ipV = true → s.status.ethV = true
  tcp : s.status.tcpV = true → s.status.ipV = true
  ph : s.status.phV = true → s.status.tcpV = true
  ipCk : s.status.ipCkV = true → s.status.ipV = true
  tcpCk : s.status.tcpCkV = true → s.status.phV = true
  ipOk : s.status.ipOk = true → s.status.ipCkV = true
  tcpOk : s.status.tcpOk = true → s.status.tcpCkV = true
  frame : s.status.frameV = true → s.status.ethV = true ∧ s.status.ipV = true ∧ s.status.tcpV = true ∧
    s.status.phV = true ∧ s.status.ipCkV = true ∧ s.status.tcpCkV = true
  frameLen : s.status.ethV = true → s.frameLen.toNat ≤ s.params.frameBytes

/-- The frame passes the checks of DEC.ETH (spec/30_encoding.md R128; spec/41_layer_decode.md R171, R172). -/
def State.ethAccepts (s : State) : Prop :=
  s.frameLen.toNat ≤ s.params.frameBytes ∧ 14 ≤ s.frameLen.toNat ∧ s.be 12 2 = 0x0800

/-- The IP header at octet `p` passes the checks of DEC.IP (R176, R178 to R180). -/
def State.ipAccepts (s : State) (p : Nat) : Prop :=
  p + 20 ≤ s.frameLen.toNat ∧ s.octet (p + 9) = 6 ∧ 5 ≤ (s.ihlAt p).toNat ∧ p + s.ipHlenAt p ≤ s.frameLen.toNat

/-- The TCP segment at octet `t` of `totlen - hlen` octets passes the checks of DEC.TCP (R185 to R188). -/
def State.tcpAccepts (s : State) (t totlen hlen : Nat) : Prop :=
  hlen ≤ totlen ∧ t + (totlen - hlen) ≤ s.frameLen.toNat ∧ 20 ≤ totlen - hlen ∧ 5 ≤ (s.doffAt t).toNat ∧
    s.tcpHlenAt t ≤ totlen - hlen

/-- Each valid bit that is 1 describes the frame in the buffer: the checks of its command hold, and its registers are
the fields of the frame (spec/10_state.md R61). -/
structure State.Current (s : State) : Prop where
  eth : s.status.ethV = true → s.ethAccepts ∧ s.eth = s.ethFields
  ip : s.status.ipV = true → s.ipAccepts s.eth.payOff.toNat ∧ s.ip = s.ipFields s.eth.payOff.toNat
  tcp : s.status.tcpV = true →
    s.tcpAccepts s.ip.payOff.toNat s.ip.totlen.toNat s.ip.hlen.toNat ∧
      s.tcp = s.tcpFields s.ip.payOff.toNat s.segmentLen
  ph : s.status.phV = true → s.ph = s.phFields
  ipCk : s.status.ipCkV = true →
    s.ipCsumCalc = checksumOf s.ipSum ∧ s.status.ipOk = (s.ipCsumCalc == s.ip.csum)
  tcpCk : s.status.tcpCkV = true →
    s.tcpCsumCalc = checksumOf s.tcpSum ∧ s.status.tcpOk = (s.tcpCsumCalc == s.tcp.csum)

/-- A state that meets all three. -/
structure State.Sound (s : State) : Prop where
  protocol : s.Protocol
  chain : s.ValidChain
  current : s.Current

/-! ### Whose move a step is (spec/20_memory.md R103; spec/70_reset_and_hazards.md R347, R353) -/

/-- The next move is the engine's, it completes the command word `c`, and `u` is the state it starts from: `s` with
the turn taken. -/
def State.engineDoes (s : State) (c : Word) (u : State) : Prop :=
  (s.turns.head? = some .engine ∨ s.turns = []) ∧ s.pending = some c ∧ u = { s with turns := s.turns.tail }

/-- The next move is the host's, it is the input `a`, and `u` is the state it starts from: `s` with the turn and the
input taken. -/
def State.hostDoes (s : State) (a : Input) (u : State) : Prop :=
  (s.turns.head? = some .host ∨ (s.turns = [] ∧ s.pending = none)) ∧
    ∃ rest, s.inputs = a :: rest ∧ u = { s with turns := s.turns.tail, inputs := rest }

/-! ### STATUS with an invalidation set cleared (spec/10_state.md R60, R61) -/

/-- STATUS with the bits of R61 and of DEC.ETH and DECODE (R60) cleared. -/
abbrev Status.withoutFrame (st : Status) : Status :=
  { st with
    ethV := false, ipV := false, tcpV := false, phV := false, ipCkV := false, tcpCkV := false, ipOk := false,
    tcpOk := false, frameV := false }

/-- STATUS with the invalidation set of DEC.IP cleared (R60). -/
abbrev Status.withoutIp (st : Status) : Status :=
  { st with
    ipV := false, tcpV := false, phV := false, ipCkV := false, tcpCkV := false, ipOk := false, tcpOk := false,
    frameV := false }

/-- STATUS with the invalidation set of DEC.TCP cleared (R60). -/
abbrev Status.withoutTcp (st : Status) : Status :=
  { st with tcpV := false, phV := false, tcpCkV := false, tcpOk := false, frameV := false }

/-- STATUS with the invalidation set of PH.BUILD cleared (R60). -/
abbrev Status.withoutPh (st : Status) : Status :=
  { st with phV := false, tcpCkV := false, tcpOk := false, frameV := false }

/-! ### How a completion is recorded (spec/60_exceptions.md R305) -/

/-- Success: ERRCODE 0, BUSY 0, DONE 1, nothing pending; `st` is STATUS but for the recording. -/
def State.afterSuccess (s : State) (st : Status) : State :=
  { s with
    status := { st with errCode := 0#4, busy := false, done := true }
    pending := none
    stage := none }

/-- Error `e` of command word `c`: ERRCODE its code, ERR 1, ERR_CMD the word, BUSY 0, DONE 1, nothing pending; `st`
is STATUS but for the recording. -/
def State.afterFailure (s : State) (st : Status) (c : Word) (e : CmdError) : State :=
  { s with
    status := { st with errCode := e.code, err := true, busy := false, done := true }
    errCmd := c
    pending := none
    stage := none }

/-- The first check that fails, of checks in the order a rule gives (R302, R315). -/
def firstError (checks : List (Bool × CmdError)) : Option CmdError :=
  match checks with
  | [] => none
  | (failed, e) :: rest => if failed then some e else firstError rest

/-- FRAME_LEN is above FRAME_BYTES: the frame-length check fails (spec/30_encoding.md R128). -/
def State.frameTooLong (s : State) : Bool :=
  decide (s.params.frameBytes < s.frameLen.toNat)

/-! ### Other terms -/

/-- The closed form of a one's-complement sum (spec/42_checksum.md R212). -/
def onesSum (total : Nat) : Nat :=
  if total = 0 then 0 else (total - 1) % 0xFFFF + 1

/-- What a register offset reads right after a reset (spec/70_reset_and_hazards.md R341). -/
def resetWord (p : Config.Params) (offset : Nat) : Word :=
  if offset = 0x000 then 0x49434531#32 else if offset = 0x004 then BitVec.ofNat 32 p.frameBytes else 0#32

/-- A reserved command word, as R129 lists them (spec/30_encoding.md). -/
def reservedWord (c : Word) : Prop :=
  ¬ (c.toNat % 256 ∈ [0x00, 0x01, 0x02, 0x10, 0x11, 0x12, 0x20, 0x21, 0x22, 0x23, 0x24, 0x28, 0x29, 0x2A, 0x30]) ∨
  c.toNat / 2 ^ 9 % 2 ^ 7 ≠ 0 ∨
  (c.toNat / 2 ^ 8 % 2 = 1 ∧ c.toNat % 256 ≠ 0x22) ∨
  (c.toNat / 2 ^ 16 ≠ 0 ∧ c.toNat % 256 ≠ 0x21)

/-- Two states hold the same frame in blocks of the same size. -/
def State.sameFrame (s t : State) : Prop :=
  s.params = t.params ∧ s.frameLen = t.frameLen ∧ ∀ i, i < s.frameLen.toNat → s.octet i = t.octet i

/-- Run commands one after the other and stop after the first that fails (the comparison of
spec/43_frame_and_control.md R261). -/
def runStopped (cmds : List Instr) (s : State) : Host.Outcome State Fault Refusal :=
  match cmds with
  | [] => .next s
  | i :: rest =>
    match exec i s with
    | .next t => if t.status.errCode = 0#4 then runStopped rest t else .next t
    | .fault f => .fault f
    | .refused r => .refused r

end Sys2Proof.Machine
end

