-- ==== Sys2Proof/Certificates/Slice0/Obligations.lean ====
section
/-! DEFINITION. The statements for the provers, each from numbered rules of spec/. -/

open Sys2Proof Sys2Proof.Machine

/-! ### The machine's step

`engineDoes` and `hostDoes` (Safety.lean) say whose move the step is; that the list `turns` says it is the model's choice
(log 4), for the interleaving that R353 leaves open. -/

/-- R347, R263: when a command word is pending and the engine moves next, the step is exactly that command's meaning
on the state with the turn taken. -/
def Obligations.StepRunsTheDecodedCommand : Prop :=
  ∀ (s u : State) (c : Word) (i : Instr), s.engineDoes c u → decode c = .command i → step s = exec i u

/-- R126, R129: a reserved word decodes to no command, and its completion records IllegalCommand and has no other
effect; every other word decodes to a command. -/
def Obligations.ReservedWordsCompleteWithIllegalCommand : Prop :=
  ∀ (s u : State) (c : Word), s.engineDoes c u →
    (reservedWord c → step s = .next (u.afterFailure u.status c .illegalCommand)) ∧
    (¬ reservedWord c → ∃ i, decode c = .command i)

/-- R126, R127: the words of the opcode map, written out from its rows, decode to their commands. -/
def Obligations.WordsOfTheOpcodeMapDecode : Prop :=
  decode 0x00000000#32 = .command .nop ∧ decode 0x00000001#32 = .command .xNib ∧
  decode 0x00000002#32 = .command .xBit ∧ decode 0x00000010#32 = .command .decEth ∧
  decode 0x00000011#32 = .command .decIp ∧ decode 0x00000012#32 = .command .decTcp ∧
  decode 0x00000020#32 = .command .csClr ∧ decode 0x00030021#32 = .command (.csAddw 0x0003#16) ∧
  decode 0x00000022#32 = .command (.csAddr false) ∧ decode 0x00000122#32 = .command (.csAddr true) ∧
  decode 0x00000023#32 = .command .csAddph ∧ decode 0x00000024#32 = .command .csFin ∧
  decode 0x00000028#32 = .command .phBuild ∧ decode 0x00000029#32 = .command .chkIp ∧
  decode 0x0000002A#32 = .command .chkTcp ∧ decode 0x00000030#32 = .command .decodeFrame

/-- R121, R122, R127: decode and encode are inverse to each other: every command, with every operand, comes back from
its word, and a word that decodes to a command is that command's word. -/
def Obligations.DecodeAndEncodeAgree : Prop :=
  (∀ i : Instr, decode (encode i) = .command i) ∧
  (∀ (c : Word) (i : Instr), decode c = .command i → encode i = c)

/-- R127, R131: each mnemonic of the opcode map, and `CS.ADDR.S`, is its command's and assembles to it, in capitals,
small letters or both mixed; CS.ADDW takes a number of at most 0xFFFF, the others none (an assembler of characters and
a number: log 19). -/
def Obligations.SyntaxAssemblesToItsCommand : Prop :=
  assemble ['N', 'O', 'P'] none = some .nop ∧
  assemble ['X', '.', 'N', 'I', 'B'] none = some .xNib ∧
  assemble ['X', '.', 'B', 'I', 'T'] none = some .xBit ∧
  assemble ['D', 'E', 'C', '.', 'E', 'T', 'H'] none = some .decEth ∧
  assemble ['D', 'E', 'C', '.', 'I', 'P'] none = some .decIp ∧
  assemble ['D', 'E', 'C', '.', 'T', 'C', 'P'] none = some .decTcp ∧
  assemble ['C', 'S', '.', 'C', 'L', 'R'] none = some .csClr ∧
  (∀ w : Half, assemble ['C', 'S', '.', 'A', 'D', 'D', 'W'] (some w.toNat) = some (.csAddw w)) ∧
  assemble ['C', 'S', '.', 'A', 'D', 'D', 'R'] none = some (.csAddr false) ∧
  assemble ['C', 'S', '.', 'A', 'D', 'D', 'R', '.', 'S'] none = some (.csAddr true) ∧
  assemble ['C', 'S', '.', 'A', 'D', 'D', 'P', 'H'] none = some .csAddph ∧
  assemble ['C', 'S', '.', 'F', 'I', 'N'] none = some .csFin ∧
  assemble ['P', 'H', '.', 'B', 'U', 'I', 'L', 'D'] none = some .phBuild ∧
  assemble ['C', 'H', 'K', '.', 'I', 'P'] none = some .chkIp ∧
  assemble ['C', 'H', 'K', '.', 'T', 'C', 'P'] none = some .chkTcp ∧
  assemble ['D', 'E', 'C', 'O', 'D', 'E'] none = some .decodeFrame ∧
  (∀ (i : Instr) (name : List Char), name.map Char.toUpper = mnemonic i → assemble name (syntaxOperand i) = some i) ∧
  (∀ (name : List Char) (operand : Option Nat) (i : Instr), assemble name operand = some i →
    operand = syntaxOperand i ∧ name.map Char.toUpper = mnemonic i) ∧
  (∀ (name : List Char) (n : Nat), 0xFFFF < n → assemble name (some n) = none)

/-- R347, R353: with no input left, a pending command has completed after at most one step more than there are turns
left, whatever the turns are. The bound is the model's form of R353's weak fairness (log 4). -/
def Obligations.PendingCommandCompletesWithinItsTurns : Prop :=
  ∀ (s : State) (c : Word), s.pending = some c → s.inputs = [] →
    ∃ t, Host.Core.run Sys2Proof.core (s.turns.length + 1) s = .next t ∧ t.pending = none ∧ t.status.busy = false ∧
      t.status.done = true

/-! ### The views of the frame -/

/-- R11, R12: what the views are in numbers, and that they agree: a range of whole octets has one value, read as
octets, as nibbles or as bits. -/
def Obligations.FrameViewsAgree : Prop :=
  ∀ (s : State) (i n : Nat),
    (s.nib (2 * i)).toNat = (s.octet i).toNat / 16 ∧
    (s.nib (2 * i + 1)).toNat = (s.octet i).toNat % 16 ∧
    (∀ b, b < 8 → (s.bit (8 * i + b)).toNat = (s.octet i).toNat / 2 ^ (7 - b) % 2) ∧
    s.be i n = ((List.range n).map fun k => (s.octet (i + k)).toNat * 256 ^ (n - 1 - k)).sum ∧
    s.nbe (2 * i) (2 * n) = s.be i n ∧
    s.bbe (8 * i) (8 * n) = s.be i n

/-! ### The one's-complement sum -/

/-- R210, R211: fold gives 16 bits, leaves a 16-bit value alone and otherwise folds once and goes on; adding a word
is fold of the sum, in one round; folding after every word or once at the end gives the same. -/
def Obligations.FoldAndAccAddAreEndAroundCarry : Prop :=
  (∀ a, fold a ≤ 0xFFFF ∧ (a ≤ 0xFFFF → fold a = a) ∧
    (0xFFFF < a → fold a = fold (a % 0x10000 + a / 0x10000))) ∧
  (∀ acc w : Half, (accAdd acc w).toNat = fold (acc.toNat + w.toNat) ∧
    (accAdd acc w).toNat =
      if acc.toNat + w.toNat ≤ 0xFFFF then acc.toNat + w.toNat else acc.toNat + w.toNat - 0xFFFF) ∧
  (∀ (acc : Half) (ws : List Half), (accSum acc ws).toNat = fold (acc.toNat + (ws.map BitVec.toNat).sum))

/-- R212: the accumulator after any words is the closed form of their sum, so their order does not matter, a zero word
changes nothing, and only an all-zero input gives 0. -/
def Obligations.SumHasTheClosedForm : Prop :=
  ∀ (acc : Half) (ws : List Half),
    (accSum acc ws).toNat = onesSum (acc.toNat + (ws.map BitVec.toNat).sum) ∧
    (∀ ws' : List Half, ws.Perm ws' → accSum acc ws' = accSum acc ws) ∧
    accSum acc (0#16 :: ws) = accSum acc ws ∧
    (accSum acc ws = 0#16 ↔ acc = 0#16 ∧ ∀ w ∈ ws, w = 0#16)

/-- R214, R227: the complement is 0xFFFF less the value, twice gives the value back, and a value and its complement
add up to 0xFFFF. -/
def Obligations.ComplementIsAnInvolution : Prop :=
  ∀ acc : Half, (checksumOf acc).toNat = 0xFFFF - acc.toNat ∧ checksumOf (checksumOf acc) = acc ∧
    accAdd acc (checksumOf acc) = 0xFFFF#16

/-! ### The commands, one by one: when each completes, with what, and which error it raises first -/

/-- R260, R215, R216, R219: NOP, CS.CLR, CS.ADDW and CS.FIN complete in every state, with their effect and no
other; and the words they are encoded as. -/
def Obligations.PlainCommandsComplete : Prop :=
  ∀ (s : State) (w : Half),
    exec .nop s = .next (s.afterSuccess s.status) ∧
    exec .csClr s = .next ({ s with acc := 0#16 }.afterSuccess s.status) ∧
    exec (.csAddw w) s = .next ({ s with acc := accAdd s.acc w }.afterSuccess s.status) ∧
    exec .csFin s = .next ({ s with csumRes := BitVec.ofNat 16 (0xFFFF - s.acc.toNat) }.afterSuccess s.status) ∧
    encode .nop = 0x00000000#32 ∧ encode .csClr = 0x00000020#32 ∧ encode .csFin = 0x00000024#32 ∧
    (encode (.csAddw w)).toNat = w.toNat * 2 ^ 16 + 0x21

/-- R152: X.NIB. -/
def Obligations.XNibFollowsItsRule : Prop :=
  ∀ s : State,
    (s.frameLen.toNat ≤ s.params.frameBytes → 1 ≤ s.argLen.toNat → s.argLen.toNat ≤ 16 →
      s.argStart.toNat + s.argLen.toNat ≤ 2 * s.frameLen.toNat →
      exec .xNib s = .next ({ s with
        xResHi := BitVec.ofNat 32 (s.nbe s.argStart.toNat s.argLen.toNat / 2 ^ 32)
        xResLo := BitVec.ofNat 32 (s.nbe s.argStart.toNat s.argLen.toNat % 2 ^ 32) }.afterSuccess s.status)) ∧
    (∀ e, firstError
        [(s.frameTooLong, .badOperand), (decide (s.argLen.toNat = 0), .missingValue),
         (decide (s.argLen.toNat > 16), .badOperand),
         (decide (s.argStart.toNat + s.argLen.toNat > 2 * s.frameLen.toNat), .outOfRange)] = some e →
      exec .xNib s = .next (s.afterFailure s.status 0x00000001#32 e))

/-- R153: X.BIT. -/
def Obligations.XBitFollowsItsRule : Prop :=
  ∀ s : State,
    (s.frameLen.toNat ≤ s.params.frameBytes → 1 ≤ s.argLen.toNat → s.argLen.toNat ≤ 64 →
      s.argStart.toNat + s.argLen.toNat ≤ 8 * s.frameLen.toNat →
      exec .xBit s = .next ({ s with
        xResHi := BitVec.ofNat 32 (s.bbe s.argStart.toNat s.argLen.toNat / 2 ^ 32)
        xResLo := BitVec.ofNat 32 (s.bbe s.argStart.toNat s.argLen.toNat % 2 ^ 32) }.afterSuccess s.status)) ∧
    (∀ e, firstError
        [(s.frameTooLong, .badOperand), (decide (s.argLen.toNat = 0), .missingValue),
         (decide (s.argLen.toNat > 64), .badOperand),
         (decide (s.argStart.toNat + s.argLen.toNat > 8 * s.frameLen.toNat), .outOfRange)] = some e →
      exec .xBit s = .next (s.afterFailure s.status 0x00000002#32 e))

/-- R170 to R173: DEC.ETH. -/
def Obligations.DecEthFollowsItsRule : Prop :=
  ∀ s : State,
    (s.frameLen.toNat ≤ s.params.frameBytes → 14 ≤ s.frameLen.toNat → s.be 12 2 = 0x0800 →
      exec .decEth s = .next ({ s with
        eth := {
          dstHi := BitVec.ofNat 16 (s.be 0 2)
          dstLo := BitVec.ofNat 32 (s.be 2 4)
          srcHi := BitVec.ofNat 16 (s.be 6 2)
          srcLo := BitVec.ofNat 32 (s.be 8 4)
          etherType := 0x0800#16
          payOff := 14#16
          payLen := BitVec.ofNat 16 (s.frameLen.toNat - 14) } }.afterSuccess
            { s.status.withoutFrame with ethV := true })) ∧
    (s.frameTooLong = true → exec .decEth s = .next (s.afterFailure s.status 0x00000010#32 .badOperand)) ∧
    (s.frameTooLong = false → ∀ e, firstError
        [(decide (s.frameLen.toNat < 14), .malformedInput), (decide (s.be 12 2 ≠ 0x0800), .notIpPacket)] = some e →
      exec .decEth s = .next (s.afterFailure s.status.withoutFrame 0x00000010#32 e))

/-- R174 to R182: DEC.IP, with `p` the octet ETH_PAY_OFF names and `ihl` the low nibble of that octet. -/
def Obligations.DecIpFollowsItsRule : Prop :=
  ∀ (s : State) (p ihl : Nat), p = s.eth.payOff.toNat → ihl = (s.octet p).toNat % 16 →
    (s.frameLen.toNat ≤ s.params.frameBytes → s.status.ethV = true → p + 20 ≤ s.frameLen.toNat →
      s.octet (p + 9) = 6#8 → 5 ≤ ihl → p + 4 * ihl ≤ s.frameLen.toNat →
      exec .decIp s = .next ({ s with
        ip := {
          ver := BitVec.ofNat 4 ((s.octet p).toNat / 16)
          ihl := BitVec.ofNat 4 ihl
          hlen := BitVec.ofNat 6 (4 * ihl)
          tos := s.octet (p + 1)
          totlen := BitVec.ofNat 16 (s.be (p + 2) 2)
          ident := BitVec.ofNat 16 (s.be (p + 4) 2)
          flags := BitVec.ofNat 3 (s.be (p + 6) 2 / 2 ^ 13)
          fragOff := BitVec.ofNat 13 (s.be (p + 6) 2 % 2 ^ 13)
          ttl := s.octet (p + 8)
          proto := 6#8
          csum := BitVec.ofNat 16 (s.be (p + 10) 2)
          src := BitVec.ofNat 32 (s.be (p + 12) 4)
          dst := BitVec.ofNat 32 (s.be (p + 16) 4)
          payOff := BitVec.ofNat 16 (p + 4 * ihl)
          payLen := BitVec.ofNat 16 (s.frameLen.toNat - (p + 4 * ihl)) } }.afterSuccess
            { s.status.withoutIp with ipV := true })) ∧
    (s.frameTooLong = true → exec .decIp s = .next (s.afterFailure s.status 0x00000011#32 .badOperand)) ∧
    (s.frameTooLong = false → ∀ e, firstError
        [(!s.status.ethV, .notDecoded), (decide ((s.frameLen.toNat : Int) - p < 20), .malformedInput),
         (decide (s.octet (p + 9) ≠ 6#8), .notTcpPacket), (decide (ihl < 5), .malformedInput),
         (decide (p + 4 * ihl > s.frameLen.toNat), .malformedInput)] = some e →
      exec .decIp s = .next (s.afterFailure s.status.withoutIp 0x00000011#32 e))

/-- R183 to R194: DEC.TCP, with `t` the octet IP_PAY_OFF names, `len` the segment's length and `doff` the high nibble
of its octet 12. -/
def Obligations.DecTcpFollowsItsRule : Prop :=
  ∀ (s : State) (t doff : Nat) (len : Int), t = s.ip.payOff.toNat → len = (s.ip.totlen.toNat : Int) - s.ip.hlen.toNat →
    doff = (s.octet (t + 12)).toNat / 16 →
    (s.frameLen.toNat ≤ s.params.frameBytes → s.status.ipV = true → t + len ≤ s.frameLen.toNat → 20 ≤ len →
      5 ≤ doff → 4 * doff ≤ len →
      exec .decTcp s = .next ({ s with
        tcp := {
          sport := BitVec.ofNat 16 (s.be t 2)
          dport := BitVec.ofNat 16 (s.be (t + 2) 2)
          seq := BitVec.ofNat 32 (s.be (t + 4) 4)
          ack := BitVec.ofNat 32 (s.be (t + 8) 4)
          doff := BitVec.ofNat 4 doff
          hlen := BitVec.ofNat 6 (4 * doff)
          flags := BitVec.ofNat 12 (s.be (t + 12) 2 % 2 ^ 12)
          win := BitVec.ofNat 16 (s.be (t + 14) 2)
          csum := BitVec.ofNat 16 (s.be (t + 16) 2)
          urg := BitVec.ofNat 16 (s.be (t + 18) 2)
          segOff := BitVec.ofNat 16 t
          segLen := BitVec.ofInt 16 len
          payOff := BitVec.ofNat 16 (t + 4 * doff)
          payLen := BitVec.ofInt 16 (len - 4 * doff)
          padOff := BitVec.ofInt 16 (t + len)
          padLen := BitVec.ofInt 16 (s.frameLen.toNat - (t + len)) } }.afterSuccess
            { s.status.withoutTcp with tcpV := true })) ∧
    (s.frameTooLong = true → exec .decTcp s = .next (s.afterFailure s.status 0x00000012#32 .badOperand)) ∧
    (s.frameTooLong = false → ∀ e, firstError
        [(!s.status.ipV, .notDecoded), (decide (len < 0), .malformedInput),
         (decide (t + len > s.frameLen.toNat), .outOfRange), (decide (len < 20), .malformedInput),
         (decide (doff < 5 ∨ 4 * doff > len), .malformedInput)] = some e →
      exec .decTcp s = .next (s.afterFailure s.status.withoutTcp 0x00000012#32 e))

/-- R213, R217: CS.ADDR and CS.ADDR.S add the words of the range, the skipped one left out, to the accumulator. -/
def Obligations.CsAddrFollowsItsRule : Prop :=
  ∀ (s : State) (skip : Bool) (start len k : Nat), start = s.argStart.toNat → len = s.argLen.toNat →
    k = s.argSkip.toNat →
    (s.frameLen.toNat ≤ s.params.frameBytes → start + len ≤ 2 * s.frameLen.toNat → len % 2 = 0 →
      (skip = true → start ≤ k ∧ k < start + len ∧ (k - start) % 4 = 0) →
      exec (.csAddr skip) s = .next ({ s with
        acc := BitVec.ofNat 16 (onesSum (s.acc.toNat + ((List.range ((len + 3) / 4)).map fun j =>
          if skip = true ∧ start + 4 * j = k then 0
          else if 4 * j + 4 ≤ len then s.nbe (start + 4 * j) 4
          else s.nbe (start + 4 * j) 2 * 256).sum)) }.afterSuccess s.status)) ∧
    (∀ e, firstError
        [(s.frameTooLong, .badOperand), (decide (start + len > 2 * s.frameLen.toNat), .outOfRange),
         (decide (len % 2 = 1), .oddLength),
         (skip && decide (k < start ∨ k ≥ start + len ∨ (k - start) % 4 ≠ 0), .badOperand)] = some e →
      exec (.csAddr skip) s = .next (s.afterFailure s.status (if skip then 0x00000122#32 else 0x00000022#32) e))

/-- R218: CS.ADDPH. -/
def Obligations.CsAddphFollowsItsRule : Prop :=
  ∀ s : State,
    (s.status.phV = true →
      exec .csAddph s = .next ({ s with
        acc := BitVec.ofNat 16 (onesSum (s.acc.toNat + (s.ph.w0.toNat + s.ph.w1.toNat + s.ph.w2.toNat +
          s.ph.w3.toNat + s.ph.w4.toNat + s.ph.w5.toNat))) }.afterSuccess s.status)) ∧
    (s.status.phV = false → exec .csAddph s = .next (s.afterFailure s.status 0x00000023#32 .notDecoded))

/-- R220, R221: PH.BUILD. -/
def Obligations.PhBuildFollowsItsRule : Prop :=
  ∀ s : State,
    (s.status.tcpV = true →
      exec .phBuild s = .next ({ s with
        ph := {
          w0 := BitVec.ofNat 16 (s.ip.src.toNat / 2 ^ 16)
          w1 := BitVec.ofNat 16 (s.ip.src.toNat % 2 ^ 16)
          w2 := BitVec.ofNat 16 (s.ip.dst.toNat / 2 ^ 16)
          w3 := BitVec.ofNat 16 (s.ip.dst.toNat % 2 ^ 16)
          w4 := BitVec.ofNat 16 s.ip.proto.toNat
          w5 := s.tcp.segLen } }.afterSuccess { s.status.withoutPh with phV := true })) ∧
    (s.status.tcpV = false →
      exec .phBuild s = .next (s.afterFailure s.status.withoutPh 0x00000028#32 .notDecoded))

/-- R222, R223: CHK.IP, with `total` the sum of the nine words of the 20-octet header. -/
def Obligations.ChkIpFollowsItsRule : Prop :=
  ∀ (s : State) (p total : Nat) (c : Half), p = s.eth.payOff.toNat →
    total = (([0, 1, 2, 3, 4, 6, 7, 8, 9] : List Nat).map fun k => s.be (p + 2 * k) 2).sum →
    c = BitVec.ofNat 16 (0xFFFF - onesSum total) →
    (s.frameLen.toNat ≤ s.params.frameBytes → s.status.ipV = true →
      exec .chkIp s = .next ({ s with
        acc := BitVec.ofNat 16 (onesSum total), csumRes := c, ipCsumCalc := c }.afterSuccess
          { s.status with ipCkV := true, ipOk := decide (c = s.ip.csum), frameV := false })) ∧
    (s.frameTooLong = true → exec .chkIp s = .next (s.afterFailure s.status 0x00000029#32 .badOperand)) ∧
    (s.frameTooLong = false → s.status.ipV = false →
      exec .chkIp s = .next (s.afterFailure
        { s.status with ipCkV := false, ipOk := false, frameV := false } 0x00000029#32 .notDecoded))

/-- R224, R225: CHK.TCP, with `total` the sum of the pseudo-header and of the segment's words, word 8 left out, an odd
last octet padded below. -/
def Obligations.ChkTcpFollowsItsRule : Prop :=
  ∀ (s : State) (t len total : Nat) (c : Half), t = s.tcp.segOff.toNat → len = s.tcp.segLen.toNat →
    total = (s.ph.w0.toNat + s.ph.w1.toNat + s.ph.w2.toNat + s.ph.w3.toNat + s.ph.w4.toNat + s.ph.w5.toNat) +
      ((List.range ((len + 1) / 2)).map fun j =>
        if j = 8 then 0
        else (s.octet (t + 2 * j)).toNat * 256 + if 2 * j + 1 < len then (s.octet (t + 2 * j + 1)).toNat else 0).sum →
    c = BitVec.ofNat 16 (0xFFFF - onesSum total) →
    (s.frameLen.toNat ≤ s.params.frameBytes → s.status.phV = true →
      exec .chkTcp s = .next ({ s with
        acc := BitVec.ofNat 16 (onesSum total), csumRes := c, tcpCsumCalc := c }.afterSuccess
          { s.status with tcpCkV := true, tcpOk := decide (c = s.tcp.csum), frameV := false })) ∧
    (s.frameTooLong = true → exec .chkTcp s = .next (s.afterFailure s.status 0x0000002A#32 .badOperand)) ∧
    (s.frameTooLong = false → s.status.phV = false →
      exec .chkTcp s = .next (s.afterFailure
        { s.status with tcpCkV := false, tcpOk := false, frameV := false } 0x0000002A#32 .notDecoded))

/-- R261: DECODE of a frame that passes every check completes with all valid bits set and the fields, pseudo-header,
checksums and comparisons of the frame; nothing else changes. -/
def Obligations.DecodeOfAGoodFrameCompletes : Prop :=
  ∀ (s : State) (t len totlen : Nat) (ph : PhRegs) (ipC tcpA tcpC : Half),
    t = 14 + s.ipHlenAt 14 → totlen = s.be 16 2 → len = totlen - s.ipHlenAt 14 →
    s.ethAccepts → s.ipAccepts 14 → s.tcpAccepts t totlen (s.ipHlenAt 14) →
    ph = ⟨s.be16 26, s.be16 28, s.be16 30, s.be16 32, 6, BitVec.ofNat 16 len⟩ →
    ipC = checksumOf (accSum 0 (s.ipHeaderWords 14)) →
    tcpA = accSum (accSum 0 ph.words) (s.segmentWords t len) → tcpC = checksumOf tcpA →
    exec .decodeFrame s = .next ({ s with
      eth := s.ethFields
      ip := s.ipFields 14
      tcp := s.tcpFields t len
      ph := ph
      ipCsumCalc := ipC
      tcpCsumCalc := tcpC
      acc := tcpA
      csumRes := tcpC }.afterSuccess
        { s.status with
          ethV := true, ipV := true, tcpV := true, phV := true, ipCkV := true, tcpCkV := true, frameV := true
          ipOk := decide (ipC = s.be16 24)
          tcpOk := decide (tcpC = s.be16 (t + 16)) })

/-- R261: DECODE ends in the state of its six commands run one after the other and stopped at the first error, but
that it sets FRAME_V on success and names its own word in ERR_CMD on failure. -/
def Obligations.DecodeEqualsItsCommandsInSequence : Prop :=
  ∀ s : State, ∃ u, runStopped [.decEth, .decIp, .decTcp, .phBuild, .chkIp, .chkTcp] s = .next u ∧
    exec .decodeFrame s = .next { u with
      status := { u.status with frameV := u.status.frameV || decide (u.status.errCode = 0#4) }
      errCmd := if u.status.errCode = 0#4 then s.errCmd else 0x00000030#32 }

/-- R263: DECODE run again right after a DECODE, with no write between, changes nothing. -/
def Obligations.DecodeTwiceChangesNothing : Prop :=
  ∀ s t : State, exec .decodeFrame s = .next t → exec .decodeFrame t = .next t

/-- R263, R261, R264: what DECODE leaves depends on the frame alone: from two states with the same frame it gives the
same error code; and, where FRAME_LEN is admitted, the same valid bits and comparisons, the same registers of every stage
that succeeded (on a failure too: the commits of the stages before it stand), and, when it succeeds, the same ACC and
CSUM_RES. -/
def Obligations.DecodeDependsOnTheFrameAlone : Prop :=
  ∀ s s' t t' : State, s.sameFrame s' → exec .decodeFrame s = .next t → exec .decodeFrame s' = .next t' →
    t.status.errCode = t'.status.errCode ∧
    (s.frameLen.toNat ≤ s.params.frameBytes →
    (t.status.ethV, t.status.ipV, t.status.tcpV, t.status.phV, t.status.ipCkV, t.status.tcpCkV, t.status.frameV) =
      (t'.status.ethV, t'.status.ipV, t'.status.tcpV, t'.status.phV, t'.status.ipCkV, t'.status.tcpCkV,
        t'.status.frameV) ∧
    (t.status.ipOk, t.status.tcpOk) = (t'.status.ipOk, t'.status.tcpOk) ∧
    (t.status.ethV = true → t.eth = t'.eth) ∧
    (t.status.ipV = true → t.ip = t'.ip) ∧
    (t.status.tcpV = true → t.tcp = t'.tcp) ∧
    (t.status.phV = true → t.ph = t'.ph) ∧
    (t.status.ipCkV = true → t.ipCsumCalc = t'.ipCsumCalc) ∧
    (t.status.tcpCkV = true → t.tcpCsumCalc = t'.tcpCsumCalc) ∧
    (t.status.errCode = 0#4 →
      t.eth = t'.eth ∧ t.ip = t'.ip ∧ t.tcp = t'.tcp ∧ t.ph = t'.ph ∧ t.ipCsumCalc = t'.ipCsumCalc ∧
        t.tcpCsumCalc = t'.tcpCsumCalc ∧ t.acc = t'.acc ∧ t.csumRes = t'.csumRes))

/-! ### All commands -/

/-- R301: the error codes. -/
def Obligations.ErrorCodesAreThoseOfTheTable : Prop :=
  (CmdError.code .missingValue, CmdError.code .outOfRange, CmdError.code .oddLength) = (1, 2, 3) ∧
  (CmdError.code .notIpPacket, CmdError.code .notTcpPacket, CmdError.code .malformedInput) = (4, 5, 6) ∧
  (CmdError.code .illegalCommand, CmdError.code .notDecoded, CmdError.code .badOperand) = (7, 8, 9)

/-- R305, R347: every completion, of every word, is a next state in which BUSY is 0, DONE is 1 and nothing is pending;
ERRCODE is 0 and ERR and ERR_CMD are as before, or ERRCODE is the code of an error and not 0, ERR is 1 and ERR_CMD is
the word. -/
def Obligations.EveryCompletionIsRecorded : Prop :=
  ∀ (s u : State) (c : Word), s.engineDoes c u →
    ∃ t, step s = .next t ∧ t.status.busy = false ∧ t.status.done = true ∧ t.pending = none ∧
      ((t.status.errCode = 0#4 ∧ t.status.err = s.status.err ∧ t.errCmd = s.errCmd) ∨
       ((∃ e : CmdError, t.status.errCode = e.code ∧ e.code ≠ 0#4) ∧ t.status.err = true ∧ t.errCmd = c))

/-- R301: the errors each command may raise. -/
def Obligations.CommandsRaiseOnlyTheirErrors : Prop :=
  ∀ (i : Instr) (s t : State), exec i s = .next t →
    t.status.errCode = 0#4 ∨
    (t.status.errCode = 1#4 ∧ (i = .xNib ∨ i = .xBit)) ∨
    (t.status.errCode = 2#4 ∧ (i = .xNib ∨ i = .xBit ∨ (∃ k, i = .csAddr k) ∨ i = .decTcp ∨ i = .decodeFrame)) ∨
    (t.status.errCode = 3#4 ∧ ∃ k, i = .csAddr k) ∨
    (t.status.errCode = 4#4 ∧ (i = .decEth ∨ i = .decodeFrame)) ∨
    (t.status.errCode = 5#4 ∧ (i = .decIp ∨ i = .decodeFrame)) ∨
    (t.status.errCode = 6#4 ∧ (i = .decEth ∨ i = .decIp ∨ i = .decTcp ∨ i = .decodeFrame)) ∨
    (t.status.errCode = 8#4 ∧
      (i = .decIp ∨ i = .decTcp ∨ i = .phBuild ∨ i = .csAddph ∨ i = .chkIp ∨ i = .chkTcp)) ∨
    (t.status.errCode = 9#4 ∧ (i = .xNib ∨ i = .xBit ∨ (∃ k, i = .csAddr k) ∨ i = .decEth ∨ i = .decIp ∨
      i = .decTcp ∨ i = .chkIp ∨ i = .chkTcp ∨ i = .decodeFrame))

/-- R33 ("written by"), R92: what no command changes, and which commands alone may change each result register. Every
octet of the buffer reads as before. -/
def Obligations.CommandsWriteOnlyTheirRegisters : Prop :=
  ∀ (i : Instr) (s t : State), exec i s = .next t →
    (t.params = s.params ∧ t.ctrlIE = s.ctrlIE ∧ t.cmd = s.cmd ∧ t.frameLen = s.frameLen ∧
      t.argStart = s.argStart ∧ t.argLen = s.argLen ∧ t.argSkip = s.argSkip ∧
      t.status.cmdOvr = s.status.cmdOvr ∧ t.status.wrIgn = s.status.wrIgn) ∧
    (∀ a, t.octet a = s.octet a) ∧
    (t.inputs = s.inputs ∧ t.turns = s.turns ∧ t.readData = s.readData ∧ t.powerOns = s.powerOns) ∧
    (t.acc = s.acc ∨ i = .csClr ∨ (∃ w, i = .csAddw w) ∨ (∃ k, i = .csAddr k) ∨ i = .csAddph ∨ i = .chkIp ∨
      i = .chkTcp ∨ i = .decodeFrame) ∧
    (t.csumRes = s.csumRes ∨ i = .csFin ∨ i = .chkIp ∨ i = .chkTcp ∨ i = .decodeFrame) ∧
    ((t.xResLo = s.xResLo ∧ t.xResHi = s.xResHi) ∨ i = .xNib ∨ i = .xBit) ∧
    (t.ipCsumCalc = s.ipCsumCalc ∨ i = .chkIp ∨ i = .decodeFrame) ∧
    (t.tcpCsumCalc = s.tcpCsumCalc ∨ i = .chkTcp ∨ i = .decodeFrame) ∧
    (t.eth = s.eth ∨ i = .decEth ∨ i = .decodeFrame) ∧
    (t.ip = s.ip ∨ i = .decIp ∨ i = .decodeFrame) ∧
    (t.tcp = s.tcp ∨ i = .decTcp ∨ i = .decodeFrame) ∧
    (t.ph = s.ph ∨ i = .phBuild ∨ i = .decodeFrame)

/-- R304: a failing command other than DECODE writes no result register, no ACC and no X_RES. -/
def Obligations.FailingCommandsWriteNoResult : Prop :=
  ∀ (i : Instr) (s t : State), i ≠ .decodeFrame → exec i s = .next t → t.status.errCode ≠ 0#4 →
    t.acc = s.acc ∧ t.csumRes = s.csumRes ∧ t.xResLo = s.xResLo ∧ t.xResHi = s.xResHi ∧
    t.ipCsumCalc = s.ipCsumCalc ∧ t.tcpCsumCalc = s.tcpCsumCalc ∧ t.eth = s.eth ∧ t.ip = s.ip ∧ t.tcp = s.tcp ∧
    t.ph = s.ph

/-- R92, R225: in a state that meets the invariants, a command's effect does not depend on octets at or past
FRAME_LEN: with another buffer that holds the same frame, the result is the same but for the buffer. -/
def Obligations.CommandsReadOnlyTheFrame : Prop :=
  ∀ (i : Instr) (s : State) (m : Memory) (n : Nat), s.Sound →
    (∀ k, k < s.frameLen.toNat → ({ s with buffer := m, powerOns := n } : State).octet k = s.octet k) →
    ∃ t, exec i s = .next t ∧
      exec i { s with buffer := m, powerOns := n } = .next { t with buffer := m, powerOns := n }

/-! ### What every reachable state satisfies -/

/-- R341, R62: a block of any admitted size (State.reset's size is the default: log 2) meets the invariants right after power-on. -/
def Obligations.PowerOnStateIsSound : Prop :=
  State.reset.Sound ∧ ∀ p : Config.Params, p.wf = true → (State.powerOn p).Sound

/-- R59, R301, R350, R352: every step keeps the buffer's canonical form inside FRAME_BYTES, the agreement of BUSY, CMD
and the pending command, DONE = 0 while BUSY = 1, no stage half done, and ERRCODE at most 9. -/
def Obligations.StepKeepsTheBusyProtocol : Prop :=
  ∀ s t : State, s.Protocol → step s = .next t → t.Protocol

/-- R62: every step keeps the valid-bit dependencies. -/
def Obligations.StepKeepsTheValidChain : Prop :=
  ∀ s t : State, s.ValidChain → step s = .next t → t.ValidChain

/-- R61, R60: after every step a valid bit that is 1 still describes the frame as it now stands in the buffer. -/
def Obligations.StepKeepsValidBitsCurrent : Prop :=
  ∀ s t : State, s.Current → step s = .next t → t.Current

/-- R62, R59, R61: from the power-on of a block of any admitted size, whatever the host does and however its accesses
interleave with the engine (logs 3 and 4), every state that is reached meets the invariants. -/
def Obligations.EveryReachableStateIsSound : Prop :=
  ∀ (p : Config.Params) (accesses : List Input) (order : List Agent) (k : Nat) (t : State), p.wf = true →
    Host.Core.run Sys2Proof.core k { State.powerOn p with inputs := accesses, turns := order } = .next t → t.Sound

/-- R56: where TCP_V is 1, the boundary registers fit together and cover the frame to its end. -/
def Obligations.BoundaryRegistersFitTogether : Prop :=
  ∀ s : State, s.Sound → s.status.tcpV = true →
    s.tcp.segOff = s.ip.payOff ∧
    s.tcp.payOff.toNat = s.tcp.segOff.toNat + s.tcp.hlen.toNat ∧
    s.tcp.payOff.toNat + s.tcp.payLen.toNat = s.tcp.segOff.toNat + s.tcp.segLen.toNat ∧
    s.tcp.segOff.toNat + s.tcp.segLen.toNat = s.tcp.padOff.toNat ∧
    s.tcp.padOff.toNat + s.tcp.padLen.toNat = s.frameLen.toNat

/-- R227: where IP_OK is 1 the ten words of the header, the embedded checksum among them, sum to 0xFFFF; where TCP_OK
is 1 the pseudo-header and all words of the segment do. -/
def Obligations.CorrectChecksumsSumToAllOnes : Prop :=
  ∀ s : State, s.Sound →
    (s.status.ipOk = true → accSum 0 ((List.range 10).map fun k => s.be16 (14 + 2 * k)) = 0xFFFF#16) ∧
    (s.status.tcpOk = true → accSum (accSum 0 s.ph.words)
      ((List.range ((s.tcp.segLen.toNat + 1) / 2)).map
        (s.segmentWord s.tcp.segOff.toNat s.tcp.segLen.toNat)) = 0xFFFF#16)

/-- R213, R217, R224: the raw range command, over the segment's nibbles with the checksum's word skipped, after the
pseudo-header, leaves in ACC what CHK.TCP leaves there. -/
def Obligations.RawRangeReproducesTheTcpCheck : Prop :=
  ∀ s a t : State, s.Sound → s.status.phV = true →
    s.argStart.toNat = 2 * s.tcp.segOff.toNat → s.argLen.toNat = 2 * s.tcp.segLen.toNat →
    s.argSkip.toNat = 2 * s.tcp.segOff.toNat + 32 →
    exec .csAddph { s with acc := 0 } = .next a → exec .chkTcp s = .next t →
    ∃ r, exec (.csAddr true) a = .next r ∧ r.status.errCode = 0#4 ∧ r.acc = t.acc

/-! ### The host's side -/

/-- R341, R344: after a power-on, and after either reset of any state, every register offset reads its reset value,
nothing is pending and the interrupt output is 0. -/
def Obligations.ResetLeavesEveryRegisterAtItsResetValue : Prop :=
  ∀ (s t : State), t = s.softReset ∨ t = s.powerOnReset ∨ t = State.powerOn s.params →
    (∀ offset, offset < 0x1000 → t.read32 offset = resetWord s.params offset) ∧ t.pending = none ∧ t.irq = false

/-- R36, R342, R343: a host write of CTRL with SRST = 1, BUSY or not, resets every register and discards the pending
command in one step, and keeps every octet of the buffer; a power-on reset does the same to registers and pending
command. -/
def Obligations.ResetsDiscardThePendingCommand : Prop :=
  ∀ (s u : State) (v : Word),
    (s.hostDoes (.w32 0x008 v) u → v.toNat / 2 % 2 = 1 →
      ∃ t, step s = .next t ∧ (∀ offset, offset < 0x1000 → t.read32 offset = resetWord s.params offset) ∧
        t.pending = none ∧ t.stage = none ∧ t.irq = false ∧ (∀ i, t.octet i = s.octet i) ∧
        t.inputs = u.inputs ∧ t.turns = u.turns ∧ t.readData = u.readData) ∧
    (s.hostDoes .powerOnReset u →
      ∃ t, step s = .next t ∧ (∀ offset, offset < 0x1000 → t.read32 offset = resetWord s.params offset) ∧
        t.pending = none ∧ t.stage = none ∧ t.irq = false ∧ t.buffer = [] ∧ t.powerOns = s.powerOns + 1 ∧
        t.inputs = u.inputs ∧ t.turns = u.turns ∧ t.readData = u.readData)

/-- R37, R346, R348: a host write to CMD is accepted while BUSY is 0, and otherwise dropped with CMD_OVR set. -/
def Obligations.CmdWriteIsAcceptedOrDropped : Prop :=
  ∀ (s u : State) (c : Word), s.hostDoes (.w32 0x00C c) u →
    (s.status.busy = false → step s = .next { u with
      cmd := c
      status := { u.status with busy := true, done := false }
      pending := some c }) ∧
    (s.status.busy = true → step s = .next { u with status := { u.status with cmdOvr := true } })

/-- R47, R48, R349: while BUSY is 1 a write to FRAME_LEN, an ARG register or the buffer is dropped and sets WR_IGN,
nothing else; a CTRL write without SRST and a STATUS write take effect; a write to any other register offset changes
nothing, and nor does one to the unmapped region (R97; that 8-bit and aligned 32-bit writes there are admitted is the
model's choice, log 7). Writes of CMD and of SRST are in CmdWriteIsAcceptedOrDropped and ResetsDiscardThePendingCommand.
-/
def Obligations.WritesWhileBusy : Prop :=
  ∀ (s u : State) (a : Input), s.hostDoes a u → s.status.busy = true →
    ((∃ v, a = .w32 0x018 v ∨ a = .w32 0x01C v ∨ a = .w32 0x020 v ∨ a = .w32 0x024 v) ∨
      (∃ i v, i < s.params.frameBytes ∧ a = .w8 (0x1000 + i) v) ∨
      (∃ i v, i % 4 = 0 ∧ i + 4 ≤ s.params.frameBytes ∧ a = .w32 (0x1000 + i) v) →
      step s = .next { u with status := { u.status with wrIgn := true } }) ∧
    (∀ v : Word, a = .w32 0x008 v → v.toNat / 2 % 2 = 0 →
      step s = .next { u with ctrlIE := decide (v.toNat % 2 = 1) }) ∧
    (∀ v : Word, a = .w32 0x010 v → step s = .next { u with status := { u.status with
      done := u.status.done && decide (v.toNat / 2 % 2 = 0)
      err := u.status.err && decide (v.toNat / 4 % 2 = 0)
      cmdOvr := u.status.cmdOvr && decide (v.toNat / 2 ^ 17 % 2 = 0)
      wrIgn := u.status.wrIgn && decide (v.toNat / 2 ^ 18 % 2 = 0) } }) ∧
    (∀ offset v, a = .w32 offset v → offset % 4 = 0 → offset < 0x1000 →
      ¬ offset ∈ [0x008, 0x00C, 0x010, 0x018, 0x01C, 0x020, 0x024] → step s = .next u) ∧
    (∀ offset, 0x1000 + s.params.frameBytes ≤ offset → offset < 2 ^ addrBits s.params →
      (∃ v, a = .w32 offset v ∧ offset % 4 = 0) ∨ (∃ v, a = .w8 offset v) → step s = .next u)

/-- R36, R38, R48, R97, R32: writes while BUSY is 0 to CTRL without SRST, STATUS, the ARG registers, read-only or
unlisted register offsets, and the unmapped region (that 8-bit and aligned 32-bit writes there are admitted is the
model's choice, log 7). Writes of CMD, of SRST, of FRAME_LEN and of the buffer are in CmdWriteIsAcceptedOrDropped,
ResetsDiscardThePendingCommand and InputWritesInvalidateResults. -/
def Obligations.WritesWhileIdle : Prop :=
  ∀ (s u : State) (a : Input), s.hostDoes a u → s.status.busy = false →
    (∀ v : Word, a = .w32 0x008 v → v.toNat / 2 % 2 = 0 →
      step s = .next { u with ctrlIE := decide (v.toNat % 2 = 1) }) ∧
    (∀ v : Word, a = .w32 0x010 v → step s = .next { u with status := { u.status with
      done := u.status.done && decide (v.toNat / 2 % 2 = 0)
      err := u.status.err && decide (v.toNat / 4 % 2 = 0)
      cmdOvr := u.status.cmdOvr && decide (v.toNat / 2 ^ 17 % 2 = 0)
      wrIgn := u.status.wrIgn && decide (v.toNat / 2 ^ 18 % 2 = 0) } }) ∧
    (∀ v : Word, a = .w32 0x01C v → step s = .next { u with argStart := v }) ∧
    (∀ v : Word, a = .w32 0x020 v → step s = .next { u with argLen := v }) ∧
    (∀ v : Word, a = .w32 0x024 v → step s = .next { u with argSkip := v }) ∧
    (∀ offset v, a = .w32 offset v → offset % 4 = 0 → offset < 0x1000 →
      ¬ offset ∈ [0x008, 0x00C, 0x010, 0x018, 0x01C, 0x020, 0x024] → step s = .next u) ∧
    (∀ offset, 0x1000 + s.params.frameBytes ≤ offset → offset < 2 ^ addrBits s.params →
      (∃ v, a = .w32 offset v ∧ offset % 4 = 0) ∨ (∃ v, a = .w8 offset v) → step s = .next u)

/-- R47, R61, R94, R99: while BUSY is 0 a write to FRAME_LEN or to the buffer takes effect and clears every valid bit,
IP_OK, TCP_OK and FRAME_V; a 32-bit buffer write moves lane k to octet k of the four, an 8-bit write moves one octet,
and every other octet reads as before. -/
def Obligations.InputWritesInvalidateResults : Prop :=
  ∀ (s u : State) (v : Word) (i : Nat), s.status.busy = false →
    (s.hostDoes (.w32 0x018 v) u → step s = .next { u with
      frameLen := BitVec.ofNat 16 (v.toNat % 2 ^ 16)
      status := u.status.withoutFrame }) ∧
    (s.hostDoes (.w32 (0x1000 + i) v) u → i % 4 = 0 → i + 4 ≤ s.params.frameBytes →
      ∃ m, step s = .next { u with buffer := m, status := u.status.withoutFrame } ∧
        (∀ k, k < 4 → (({ u with buffer := m } : State).octet (i + k)).toNat = v.toNat / 256 ^ k % 256) ∧
        (∀ j, j < i ∨ i + 4 ≤ j → ({ u with buffer := m } : State).octet j = s.octet j)) ∧
    (∀ b : Octet, s.hostDoes (.w8 (0x1000 + i) b) u → i < s.params.frameBytes →
      ∃ m, step s = .next { u with buffer := m, status := u.status.withoutFrame } ∧
        ({ u with buffer := m } : State).octet i = b ∧
        (∀ j, j ≠ i → ({ u with buffer := m } : State).octet j = s.octet j))

/-- R94, R95, R97, R98: an admitted read changes nothing of the block and returns: a register's value (row by row:
RegisterRowsReadTheirFields), the four octets on their lanes, the octet, or 0 in reserved and unmapped places. That
8-bit and aligned 32-bit reads of the unmapped region are admitted is the model's choice (log 7); the data goes to the
model's list of data read (log 10). -/
def Obligations.ReadsReturnDataAndChangeNothing : Prop :=
  ∀ (s u : State) (offset : Nat) (d : Word) (b : Octet),
    (s.hostDoes (.r32 offset) u → offset % 4 = 0 → offset < 2 ^ addrBits s.params →
      (offset < 0x1000 ∧ d = s.read32 offset) ∨
        (∃ r : Reg, offset = r.offset ∧ d = s.readReg r) ∨
        (offset < 0x1000 ∧ (∀ r : Reg, offset ≠ r.offset) ∧ d = 0) ∨
        (0x1000 ≤ offset ∧ offset + 4 ≤ 0x1000 + s.params.frameBytes ∧
          ∀ k, k < 4 → d.toNat / 256 ^ k % 256 = (s.octet (offset - 0x1000 + k)).toNat) ∨
        (0x1000 + s.params.frameBytes ≤ offset ∧ d = 0) →
      step s = .next { u with readData := .word d :: u.readData }) ∧
    (s.hostDoes (.r8 offset) u → 0x1000 ≤ offset → offset < 2 ^ addrBits s.params →
      b = (if offset < 0x1000 + s.params.frameBytes then s.octet (offset - 0x1000) else 0#8) →
      step s = .next { u with readData := .octet b :: u.readData })

/-- R132: WAIT reads STATUS and, while BUSY is 1, is still to come; that it then stays the first input is the model's form
of reading repeatedly (log 15). -/
def Obligations.WaitReadsStatusUntilIdle : Prop :=
  ∀ s u : State, s.hostDoes .wait u →
    (s.status.busy = false → step s = .next { u with readData := .word (s.readReg .status) :: u.readData }) ∧
    (s.status.busy = true → step s = .next { u with
      inputs := .wait :: u.inputs, readData := .word (s.readReg .status) :: u.readData })

/-- R96: an access that is not admitted, at an offset the bus has, is refused: 8 bits to a register, 16 bits anywhere,
32 bits not 4-aligned or past the buffer's end. R96 says that a model refuses it (log 9). -/
def Obligations.AccessesNotAdmittedAreRefused : Prop :=
  ∀ (s u : State) (a : Input) (offset : Nat), s.hostDoes a u → offset < 2 ^ addrBits s.params →
    ((∃ v, a = .w8 offset v) ∨ a = .r8 offset) ∧ offset < 0x1000 ∨
    ((∃ v, a = .w16 offset v) ∨ a = .r16 offset) ∨
    ((∃ v, a = .w32 offset v) ∨ a = .r32 offset) ∧
      (offset % 4 ≠ 0 ∨ (0x1000 ≤ offset ∧ offset < 0x1000 + s.params.frameBytes ∧
        0x1000 + s.params.frameBytes < offset + 4)) →
    step s = .refused (.accessNotAdmitted offset)

/-- R8: ADDR_BITS is the smallest width whose offsets cover the registers and the buffer. -/
def Obligations.AddressWidthIsTheSmallest : Prop :=
  ∀ p : Config.Params, 0x1000 + p.frameBytes ≤ 2 ^ addrBits p ∧
    ∀ n, 0x1000 + p.frameBytes ≤ 2 ^ n → addrBits p ≤ n

/-- R33, R34, R35: no two registers share an offset, each lies 4-aligned in the register region, the host reads at its
offset its value, ID reads the constant and PARAM reads FRAME_BYTES. -/
def Obligations.RegisterMapIsUnambiguous : Prop :=
  (∀ r q : Reg, r.offset = q.offset → r = q) ∧
  ∀ (s : State) (r : Reg), r.offset % 4 = 0 ∧ r.offset < 0x1000 ∧ s.read32 r.offset = s.readReg r ∧
    s.read32 0x000 = 0x49434531#32 ∧ s.read32 0x004 = BitVec.ofNat 32 s.params.frameBytes

/-- R38: what each bit of STATUS reads; the reserved bits read 0. -/
def Obligations.StatusBitsReadTheirFields : Prop :=
  ∀ s : State, (s.readReg .status).toNat =
    s.status.busy.toNat + 2 * s.status.done.toNat + 4 * s.status.err.toNat + 2 ^ 4 * s.status.errCode.toNat +
    2 ^ 8 * s.status.ethV.toNat + 2 ^ 9 * s.status.ipV.toNat + 2 ^ 10 * s.status.tcpV.toNat +
    2 ^ 11 * s.status.phV.toNat + 2 ^ 12 * s.status.ipCkV.toNat + 2 ^ 13 * s.status.tcpCkV.toNat +
    2 ^ 14 * s.status.ipOk.toNat + 2 ^ 15 * s.status.tcpOk.toNat + 2 ^ 16 * s.status.frameV.toNat +
    2 ^ 17 * s.status.cmdOvr.toNat + 2 ^ 18 * s.status.wrIgn.toNat

/-- R319, R320: the interrupt output is IE and DONE; a completion raises it when IE is 1; a W1C write of DONE and the
acceptance of a command lower it; a write of IE alone does not change DONE. -/
def Obligations.InterruptFollowsDone : Prop :=
  ∀ s u t : State, step s = .next t →
    s.irq = (s.ctrlIE && s.status.done) ∧
    (∀ c, s.engineDoes c u → t.irq = s.ctrlIE) ∧
    (∀ v : Word, s.hostDoes (.w32 0x010 v) u → v.toNat / 2 % 2 = 1 → t.irq = false) ∧
    (∀ c, s.hostDoes (.w32 0x00C c) u → s.status.busy = false → t.irq = false) ∧
    (∀ v : Word, s.hostDoes (.w32 0x008 v) u → v.toNat / 2 % 2 = 0 →
      t.status.done = s.status.done ∧ t.irq = (decide (v.toNat % 2 = 1) && s.status.done))

/-- R104, R349: while a command is pending, no access of the host but a reset changes that command or anything it
reads. -/
def Obligations.PendingCommandKeepsItsInputs : Prop :=
  ∀ (s u t : State) (a : Input) (c : Word), s.Protocol → s.pending = some c → s.hostDoes a u → a ≠ .powerOnReset →
    (∀ v : Word, a = .w32 0x008 v → v.toNat / 2 % 2 = 0) → step s = .next t →
    t.pending = some c ∧ t.status.busy = true ∧ t.cmd = s.cmd ∧ t.params = s.params ∧ t.frameLen = s.frameLen ∧
    t.argStart = s.argStart ∧ t.argLen = s.argLen ∧ t.argSkip = s.argSkip ∧ (∀ i, t.octet i = s.octet i) ∧
    t.acc = s.acc ∧ t.csumRes = s.csumRes ∧ t.xRes = s.xRes ∧ t.eth = s.eth ∧ t.ip = s.ip ∧ t.tcp = s.tcp ∧
    t.ph = s.ph ∧ t.ipCsumCalc = s.ipCsumCalc ∧ t.tcpCsumCalc = s.tcpCsumCalc ∧
    t.status = { s.status with
      done := t.status.done, err := t.status.err, cmdOvr := t.status.cmdOvr, wrIgn := t.status.wrIgn }

/-- R132, R133: LOADF of a frame that fits, run from an idle state, leaves FRAME_LEN its length and its octets in the
buffer in order, after as many steps as it has writes. That inputs are a list of which a step performs one, and that the
host moves where no turn is left and nothing is pending, is the model's choice (logs 3 and 4). -/
def Obligations.LoadFrameLoadsTheFrame : Prop :=
  ∀ (s : State) (bs : List Octet) (rest : List Input), s.Protocol → s.pending = none → s.turns = [] →
    4 * ((bs.length + 3) / 4) ≤ s.params.frameBytes → s.inputs = loadFrameMacro bs ++ rest →
    ∃ t, Host.Core.run Sys2Proof.core ((bs.length + 3) / 4 + 1) s = .next t ∧ t.inputs = rest ∧
      t.frameLen.toNat = bs.length ∧ ∀ k (h : k < bs.length), t.octet k = bs[k]

/-- R33, R36, R37: what the host reads at the offset of each row of the register map: that row's field, zeros above it
(R32), SRST read as 0, STATUS as StatusBitsReadTheirFields says; and 0 at the reserved offsets. -/
def Obligations.RegisterRowsReadTheirFields : Prop :=
  ∀ s : State,
    s.read32 0x000 = 0x49434531#32 ∧
    s.read32 0x004 = BitVec.ofNat 32 s.params.frameBytes ∧
    (s.read32 0x008).toNat = s.ctrlIE.toNat ∧
    s.read32 0x00C = s.cmd ∧
    s.read32 0x010 = s.readReg .status ∧
    s.read32 0x014 = s.errCmd ∧
    s.read32 0x018 = s.frameLen.setWidth 32 ∧
    s.read32 0x01C = s.argStart ∧
    s.read32 0x020 = s.argLen ∧
    s.read32 0x024 = s.argSkip ∧
    s.read32 0x028 = s.acc.setWidth 32 ∧
    s.read32 0x02C = s.csumRes.setWidth 32 ∧
    s.read32 0x030 = s.xResLo ∧
    s.read32 0x034 = s.xResHi ∧
    s.read32 0x038 = s.ipCsumCalc.setWidth 32 ∧
    s.read32 0x03C = s.tcpCsumCalc.setWidth 32 ∧
    s.read32 0x040 = s.eth.dstHi.setWidth 32 ∧
    s.read32 0x044 = s.eth.dstLo ∧
    s.read32 0x048 = s.eth.srcHi.setWidth 32 ∧
    s.read32 0x04C = s.eth.srcLo ∧
    s.read32 0x050 = s.eth.etherType.setWidth 32 ∧
    s.read32 0x054 = s.eth.payOff.setWidth 32 ∧
    s.read32 0x058 = s.eth.payLen.setWidth 32 ∧
    s.read32 0x060 = s.ip.ver.setWidth 32 ∧
    s.read32 0x064 = s.ip.ihl.setWidth 32 ∧
    s.read32 0x068 = s.ip.hlen.setWidth 32 ∧
    s.read32 0x06C = s.ip.tos.setWidth 32 ∧
    s.read32 0x070 = s.ip.totlen.setWidth 32 ∧
    s.read32 0x074 = s.ip.ident.setWidth 32 ∧
    s.read32 0x078 = s.ip.flags.setWidth 32 ∧
    s.read32 0x07C = s.ip.fragOff.setWidth 32 ∧
    s.read32 0x080 = s.ip.ttl.setWidth 32 ∧
    s.read32 0x084 = s.ip.proto.setWidth 32 ∧
    s.read32 0x088 = s.ip.csum.setWidth 32 ∧
    s.read32 0x08C = s.ip.src ∧
    s.read32 0x090 = s.ip.dst ∧
    s.read32 0x094 = s.ip.payOff.setWidth 32 ∧
    s.read32 0x098 = s.ip.payLen.setWidth 32 ∧
    s.read32 0x0A0 = s.tcp.sport.setWidth 32 ∧
    s.read32 0x0A4 = s.tcp.dport.setWidth 32 ∧
    s.read32 0x0A8 = s.tcp.seq ∧
    s.read32 0x0AC = s.tcp.ack ∧
    s.read32 0x0B0 = s.tcp.doff.setWidth 32 ∧
    s.read32 0x0B4 = s.tcp.hlen.setWidth 32 ∧
    s.read32 0x0B8 = s.tcp.flags.setWidth 32 ∧
    s.read32 0x0BC = s.tcp.win.setWidth 32 ∧
    s.read32 0x0C0 = s.tcp.csum.setWidth 32 ∧
    s.read32 0x0C4 = s.tcp.urg.setWidth 32 ∧
    s.read32 0x0C8 = s.tcp.segOff.setWidth 32 ∧
    s.read32 0x0CC = s.tcp.segLen.setWidth 32 ∧
    s.read32 0x0D0 = s.tcp.payOff.setWidth 32 ∧
    s.read32 0x0D4 = s.tcp.payLen.setWidth 32 ∧
    s.read32 0x0D8 = s.tcp.padOff.setWidth 32 ∧
    s.read32 0x0DC = s.tcp.padLen.setWidth 32 ∧
    s.read32 0x0E0 = s.ph.w0.setWidth 32 ∧
    s.read32 0x0E4 = s.ph.w1.setWidth 32 ∧
    s.read32 0x0E8 = s.ph.w2.setWidth 32 ∧
    s.read32 0x0EC = s.ph.w3.setWidth 32 ∧
    s.read32 0x0F0 = s.ph.w4.setWidth 32 ∧
    s.read32 0x0F4 = s.ph.w5.setWidth 32 ∧
    s.read32 0x05C = 0 ∧ s.read32 0x09C = 0 ∧ (∀ offset, 0x0F8 ≤ offset → offset < 0x1000 → s.read32 offset = 0)
end

