-- ==== Sys2Proof/Laws/Memory.lean ====
section
/-! SUPPORT. The frame buffer's laws: a read after a write, and that every write keeps the canonical form and the
bound on indexes. -/

namespace Sys2Proof.Machine

theorem Memory.read_write_same (m : Memory) (i : Nat) (v : Octet) : (m.write i v).read i = some v := by
  induction m with
  | nil => simp [Memory.write, Memory.read]
  | cons c rest ih =>
    obtain ⟨j, w⟩ := c
    simp only [Memory.write]
    split
    · simp [Memory.read]
    · split
      · simp [Memory.read]
      · rename_i h₁ h₂
        have h₃ : ¬ j = i := fun h => h₂ h.symm
        simp [Memory.read, h₃, ih]

theorem Memory.read_write_ne (m : Memory) {i j : Nat} (v : Octet) (h : j ≠ i) : (m.write i v).read j = m.read j := by
  have hij : ¬ i = j := fun e => h e.symm
  induction m with
  | nil => simp [Memory.write, Memory.read, hij]
  | cons c rest ih =>
    obtain ⟨k, w⟩ := c
    simp only [Memory.write]
    split
    · simp [Memory.read, hij]
    · split
      · rename_i _ e
        have : ¬ k = j := fun e' => hij (e.trans e')
        simp [Memory.read, hij, this]
      · simp [Memory.read, ih]

theorem Memory.read_write (m : Memory) (i j : Nat) (v : Octet) :
    (m.write i v).read j = if j = i then some v else m.read j := by
  split
  · subst j; exact m.read_write_same i v
  · exact m.read_write_ne v ‹_›

/-- The first index of a canonical buffer after a write is the lower of the two. -/
theorem Memory.wf_write {m : Memory} (h : m.wf = true) (i : Nat) (v : Octet) : (m.write i v).wf = true := by
  induction m with
  | nil => simp [Memory.write, Memory.wf]
  | cons c rest ih =>
    obtain ⟨j, w⟩ := c
    simp only [Memory.write]
    split
    · rename_i hij
      simp only [Memory.wf, Bool.and_eq_true] at h ⊢
      exact ⟨by simpa using hij, h⟩
    · split
      · rename_i _ hij
        subst hij
        cases rest with
        | nil => simp [Memory.wf]
        | cons d tail => obtain ⟨k, x⟩ := d; simpa [Memory.wf] using h
      · rename_i hij hne
        have hj : j < i := by omega
        cases rest with
        | nil => simp [Memory.wf, Memory.write, hj]
        | cons d tail =>
          obtain ⟨k, x⟩ := d
          simp only [Memory.wf, Bool.and_eq_true, decide_eq_true_eq] at h
          have ih' := ih (by simpa [Memory.wf] using h.2)
          simp only [Memory.write] at ih' ⊢
          split
          · rename_i hik
            rw [if_pos hik] at ih'
            rw [Memory.wf, ih']
            simpa using hj
          · rename_i hik
            rw [if_neg hik] at ih'
            split
            · rename_i hik'
              rw [if_pos hik'] at ih'
              rw [Memory.wf, ih']
              simpa using hj
            · rename_i hik'
              rw [if_neg hik'] at ih'
              rw [Memory.wf, ih']
              simpa using h.1

theorem Memory.below_write {m : Memory} {n i : Nat} (h : m.below n = true) (hi : i < n) (v : Octet) :
    (m.write i v).below n = true := by
  induction m with
  | nil => simpa [Memory.write, Memory.below] using hi
  | cons c rest ih =>
    obtain ⟨j, w⟩ := c
    simp only [Memory.below, List.all_cons, Bool.and_eq_true, decide_eq_true_eq] at h ih
    have ih' := ih h.2
    simp only [Memory.write]
    split
    · simp [Memory.below, hi, h.1]
      simpa using h.2
    · split
      · simp [Memory.below, hi]
        simpa using h.2
      · simp only [Memory.below, List.all_cons, Bool.and_eq_true, decide_eq_true_eq]
        exact ⟨h.1, ih'⟩

theorem Memory.wf_writeOctets {m : Memory} (h : m.wf = true) (i : Nat) (vs : List Octet) :
    (m.writeOctets i vs).wf = true := by
  induction vs generalizing m i with
  | nil => exact h
  | cons v rest ih => exact ih (Memory.wf_write h i v) (i + 1)

theorem Memory.below_writeOctets {m : Memory} {n i : Nat} {vs : List Octet} (h : m.below n = true)
    (hi : i + vs.length ≤ n) : (m.writeOctets i vs).below n = true := by
  induction vs generalizing m i with
  | nil => exact h
  | cons v rest ih =>
    simp only [List.length_cons] at hi
    exact ih (Memory.below_write h (by omega) v) (by omega)

/-- What a read finds after octets were written from index `i`. -/
theorem Memory.read_writeOctets (m : Memory) (i j : Nat) (vs : List Octet) :
    (m.writeOctets i vs).read j = if i ≤ j ∧ j < i + vs.length then vs[j - i]? else m.read j := by
  induction vs generalizing m i with
  | nil =>
    rw [Memory.writeOctets, if_neg (by simp)]
  | cons v rest ih =>
    rw [Memory.writeOctets, ih, Memory.read_write]
    simp only [List.length_cons]
    by_cases h₁ : i + 1 ≤ j ∧ j < i + 1 + rest.length
    · rw [if_pos h₁, if_pos (by omega)]
      rw [show j - i = (j - (i + 1)) + 1 by omega, List.getElem?_cons_succ]
    · rw [if_neg h₁]
      by_cases h₂ : j = i
      · subst h₂
        simp
      · rw [if_neg h₂, if_neg (by omega)]

end Sys2Proof.Machine
end

