-- ==== Sys2Proof/Laws/State.lean ====
section
/-! SUPPORT. What each shared update leaves in each field of the state, one lemma a field, so that no proof unfolds a
record update. -/

namespace Sys2Proof.Machine

/-! ### withStatus -/

@[simp] theorem State.withStatus_params (s : State) (st : Status) : (s.withStatus st).params = s.params := rfl
@[simp] theorem State.withStatus_ctrlIE (s : State) (st : Status) : (s.withStatus st).ctrlIE = s.ctrlIE := rfl
@[simp] theorem State.withStatus_cmd (s : State) (st : Status) : (s.withStatus st).cmd = s.cmd := rfl
@[simp] theorem State.withStatus_status (s : State) (st : Status) : (s.withStatus st).status = st := rfl
@[simp] theorem State.withStatus_errCmd (s : State) (st : Status) : (s.withStatus st).errCmd = s.errCmd := rfl
@[simp] theorem State.withStatus_frameLen (s : State) (st : Status) : (s.withStatus st).frameLen = s.frameLen := rfl
@[simp] theorem State.withStatus_argStart (s : State) (st : Status) : (s.withStatus st).argStart = s.argStart := rfl
@[simp] theorem State.withStatus_argLen (s : State) (st : Status) : (s.withStatus st).argLen = s.argLen := rfl
@[simp] theorem State.withStatus_argSkip (s : State) (st : Status) : (s.withStatus st).argSkip = s.argSkip := rfl
@[simp] theorem State.withStatus_acc (s : State) (st : Status) : (s.withStatus st).acc = s.acc := rfl
@[simp] theorem State.withStatus_csumRes (s : State) (st : Status) : (s.withStatus st).csumRes = s.csumRes := rfl
@[simp] theorem State.withStatus_xResLo (s : State) (st : Status) : (s.withStatus st).xResLo = s.xResLo := rfl
@[simp] theorem State.withStatus_xResHi (s : State) (st : Status) : (s.withStatus st).xResHi = s.xResHi := rfl
@[simp] theorem State.withStatus_ipCsumCalc (s : State) (st : Status) : (s.withStatus st).ipCsumCalc = s.ipCsumCalc := rfl
@[simp] theorem State.withStatus_tcpCsumCalc (s : State) (st : Status) : (s.withStatus st).tcpCsumCalc = s.tcpCsumCalc := rfl
@[simp] theorem State.withStatus_eth (s : State) (st : Status) : (s.withStatus st).eth = s.eth := rfl
@[simp] theorem State.withStatus_ip (s : State) (st : Status) : (s.withStatus st).ip = s.ip := rfl
@[simp] theorem State.withStatus_tcp (s : State) (st : Status) : (s.withStatus st).tcp = s.tcp := rfl
@[simp] theorem State.withStatus_ph (s : State) (st : Status) : (s.withStatus st).ph = s.ph := rfl
@[simp] theorem State.withStatus_buffer (s : State) (st : Status) : (s.withStatus st).buffer = s.buffer := rfl
@[simp] theorem State.withStatus_pending (s : State) (st : Status) : (s.withStatus st).pending = s.pending := rfl
@[simp] theorem State.withStatus_stage (s : State) (st : Status) : (s.withStatus st).stage = s.stage := rfl
@[simp] theorem State.withStatus_powerOns (s : State) (st : Status) : (s.withStatus st).powerOns = s.powerOns := rfl
@[simp] theorem State.withStatus_inputs (s : State) (st : Status) : (s.withStatus st).inputs = s.inputs := rfl
@[simp] theorem State.withStatus_turns (s : State) (st : Status) : (s.withStatus st).turns = s.turns := rfl
@[simp] theorem State.withStatus_readData (s : State) (st : Status) : (s.withStatus st).readData = s.readData := rfl
@[simp] theorem State.withStatus_octet (s : State) (st : Status) (i : Nat) : (s.withStatus st).octet i = s.octet i := rfl

/-! ### invalidate -/

@[simp] theorem State.invalidate_params (s : State) (k : Stage) : (s.invalidate k).params = s.params := rfl
@[simp] theorem State.invalidate_ctrlIE (s : State) (k : Stage) : (s.invalidate k).ctrlIE = s.ctrlIE := rfl
@[simp] theorem State.invalidate_cmd (s : State) (k : Stage) : (s.invalidate k).cmd = s.cmd := rfl
@[simp] theorem State.invalidate_status (s : State) (k : Stage) : (s.invalidate k).status = s.status.invalidate k := rfl
@[simp] theorem State.invalidate_errCmd (s : State) (k : Stage) : (s.invalidate k).errCmd = s.errCmd := rfl
@[simp] theorem State.invalidate_frameLen (s : State) (k : Stage) : (s.invalidate k).frameLen = s.frameLen := rfl
@[simp] theorem State.invalidate_argStart (s : State) (k : Stage) : (s.invalidate k).argStart = s.argStart := rfl
@[simp] theorem State.invalidate_argLen (s : State) (k : Stage) : (s.invalidate k).argLen = s.argLen := rfl
@[simp] theorem State.invalidate_argSkip (s : State) (k : Stage) : (s.invalidate k).argSkip = s.argSkip := rfl
@[simp] theorem State.invalidate_acc (s : State) (k : Stage) : (s.invalidate k).acc = s.acc := rfl
@[simp] theorem State.invalidate_csumRes (s : State) (k : Stage) : (s.invalidate k).csumRes = s.csumRes := rfl
@[simp] theorem State.invalidate_xResLo (s : State) (k : Stage) : (s.invalidate k).xResLo = s.xResLo := rfl
@[simp] theorem State.invalidate_xResHi (s : State) (k : Stage) : (s.invalidate k).xResHi = s.xResHi := rfl
@[simp] theorem State.invalidate_ipCsumCalc (s : State) (k : Stage) : (s.invalidate k).ipCsumCalc = s.ipCsumCalc := rfl
@[simp] theorem State.invalidate_tcpCsumCalc (s : State) (k : Stage) : (s.invalidate k).tcpCsumCalc = s.tcpCsumCalc := rfl
@[simp] theorem State.invalidate_eth (s : State) (k : Stage) : (s.invalidate k).eth = s.eth := rfl
@[simp] theorem State.invalidate_ip (s : State) (k : Stage) : (s.invalidate k).ip = s.ip := rfl
@[simp] theorem State.invalidate_tcp (s : State) (k : Stage) : (s.invalidate k).tcp = s.tcp := rfl
@[simp] theorem State.invalidate_ph (s : State) (k : Stage) : (s.invalidate k).ph = s.ph := rfl
@[simp] theorem State.invalidate_buffer (s : State) (k : Stage) : (s.invalidate k).buffer = s.buffer := rfl
@[simp] theorem State.invalidate_pending (s : State) (k : Stage) : (s.invalidate k).pending = s.pending := rfl
@[simp] theorem State.invalidate_stage (s : State) (k : Stage) : (s.invalidate k).stage = s.stage := rfl
@[simp] theorem State.invalidate_powerOns (s : State) (k : Stage) : (s.invalidate k).powerOns = s.powerOns := rfl
@[simp] theorem State.invalidate_inputs (s : State) (k : Stage) : (s.invalidate k).inputs = s.inputs := rfl
@[simp] theorem State.invalidate_turns (s : State) (k : Stage) : (s.invalidate k).turns = s.turns := rfl
@[simp] theorem State.invalidate_readData (s : State) (k : Stage) : (s.invalidate k).readData = s.readData := rfl
@[simp] theorem State.invalidate_octet (s : State) (k : Stage) (i : Nat) : (s.invalidate k).octet i = s.octet i := rfl

/-! ### completeDone -/

@[simp] theorem State.completeDone_params (s : State) : s.completeDone.params = s.params := rfl
@[simp] theorem State.completeDone_ctrlIE (s : State) : s.completeDone.ctrlIE = s.ctrlIE := rfl
@[simp] theorem State.completeDone_cmd (s : State) : s.completeDone.cmd = s.cmd := rfl
@[simp] theorem State.completeDone_status (s : State) : s.completeDone.status = { s.status with errCode := 0, busy := false, done := true } := rfl
@[simp] theorem State.completeDone_errCmd (s : State) : s.completeDone.errCmd = s.errCmd := rfl
@[simp] theorem State.completeDone_frameLen (s : State) : s.completeDone.frameLen = s.frameLen := rfl
@[simp] theorem State.completeDone_argStart (s : State) : s.completeDone.argStart = s.argStart := rfl
@[simp] theorem State.completeDone_argLen (s : State) : s.completeDone.argLen = s.argLen := rfl
@[simp] theorem State.completeDone_argSkip (s : State) : s.completeDone.argSkip = s.argSkip := rfl
@[simp] theorem State.completeDone_acc (s : State) : s.completeDone.acc = s.acc := rfl
@[simp] theorem State.completeDone_csumRes (s : State) : s.completeDone.csumRes = s.csumRes := rfl
@[simp] theorem State.completeDone_xResLo (s : State) : s.completeDone.xResLo = s.xResLo := rfl
@[simp] theorem State.completeDone_xResHi (s : State) : s.completeDone.xResHi = s.xResHi := rfl
@[simp] theorem State.completeDone_ipCsumCalc (s : State) : s.completeDone.ipCsumCalc = s.ipCsumCalc := rfl
@[simp] theorem State.completeDone_tcpCsumCalc (s : State) : s.completeDone.tcpCsumCalc = s.tcpCsumCalc := rfl
@[simp] theorem State.completeDone_eth (s : State) : s.completeDone.eth = s.eth := rfl
@[simp] theorem State.completeDone_ip (s : State) : s.completeDone.ip = s.ip := rfl
@[simp] theorem State.completeDone_tcp (s : State) : s.completeDone.tcp = s.tcp := rfl
@[simp] theorem State.completeDone_ph (s : State) : s.completeDone.ph = s.ph := rfl
@[simp] theorem State.completeDone_buffer (s : State) : s.completeDone.buffer = s.buffer := rfl
@[simp] theorem State.completeDone_pending (s : State) : s.completeDone.pending = none := rfl
@[simp] theorem State.completeDone_stage (s : State) : s.completeDone.stage = none := rfl
@[simp] theorem State.completeDone_powerOns (s : State) : s.completeDone.powerOns = s.powerOns := rfl
@[simp] theorem State.completeDone_inputs (s : State) : s.completeDone.inputs = s.inputs := rfl
@[simp] theorem State.completeDone_turns (s : State) : s.completeDone.turns = s.turns := rfl
@[simp] theorem State.completeDone_readData (s : State) : s.completeDone.readData = s.readData := rfl
@[simp] theorem State.completeDone_octet (s : State) (i : Nat) : s.completeDone.octet i = s.octet i := rfl

/-! ### completeError -/

@[simp] theorem State.completeError_params (s : State) (c : Word) (e : CmdError) : (s.completeError c e).params = s.params := rfl
@[simp] theorem State.completeError_ctrlIE (s : State) (c : Word) (e : CmdError) : (s.completeError c e).ctrlIE = s.ctrlIE := rfl
@[simp] theorem State.completeError_cmd (s : State) (c : Word) (e : CmdError) : (s.completeError c e).cmd = s.cmd := rfl
@[simp] theorem State.completeError_status (s : State) (c : Word) (e : CmdError) : (s.completeError c e).status = { s.status with errCode := e.code, err := true, busy := false, done := true } := rfl
@[simp] theorem State.completeError_errCmd (s : State) (c : Word) (e : CmdError) : (s.completeError c e).errCmd = c := rfl
@[simp] theorem State.completeError_frameLen (s : State) (c : Word) (e : CmdError) : (s.completeError c e).frameLen = s.frameLen := rfl
@[simp] theorem State.completeError_argStart (s : State) (c : Word) (e : CmdError) : (s.completeError c e).argStart = s.argStart := rfl
@[simp] theorem State.completeError_argLen (s : State) (c : Word) (e : CmdError) : (s.completeError c e).argLen = s.argLen := rfl
@[simp] theorem State.completeError_argSkip (s : State) (c : Word) (e : CmdError) : (s.completeError c e).argSkip = s.argSkip := rfl
@[simp] theorem State.completeError_acc (s : State) (c : Word) (e : CmdError) : (s.completeError c e).acc = s.acc := rfl
@[simp] theorem State.completeError_csumRes (s : State) (c : Word) (e : CmdError) : (s.completeError c e).csumRes = s.csumRes := rfl
@[simp] theorem State.completeError_xResLo (s : State) (c : Word) (e : CmdError) : (s.completeError c e).xResLo = s.xResLo := rfl
@[simp] theorem State.completeError_xResHi (s : State) (c : Word) (e : CmdError) : (s.completeError c e).xResHi = s.xResHi := rfl
@[simp] theorem State.completeError_ipCsumCalc (s : State) (c : Word) (e : CmdError) : (s.completeError c e).ipCsumCalc = s.ipCsumCalc := rfl
@[simp] theorem State.completeError_tcpCsumCalc (s : State) (c : Word) (e : CmdError) : (s.completeError c e).tcpCsumCalc = s.tcpCsumCalc := rfl
@[simp] theorem State.completeError_eth (s : State) (c : Word) (e : CmdError) : (s.completeError c e).eth = s.eth := rfl
@[simp] theorem State.completeError_ip (s : State) (c : Word) (e : CmdError) : (s.completeError c e).ip = s.ip := rfl
@[simp] theorem State.completeError_tcp (s : State) (c : Word) (e : CmdError) : (s.completeError c e).tcp = s.tcp := rfl
@[simp] theorem State.completeError_ph (s : State) (c : Word) (e : CmdError) : (s.completeError c e).ph = s.ph := rfl
@[simp] theorem State.completeError_buffer (s : State) (c : Word) (e : CmdError) : (s.completeError c e).buffer = s.buffer := rfl
@[simp] theorem State.completeError_pending (s : State) (c : Word) (e : CmdError) : (s.completeError c e).pending = none := rfl
@[simp] theorem State.completeError_stage (s : State) (c : Word) (e : CmdError) : (s.completeError c e).stage = none := rfl
@[simp] theorem State.completeError_powerOns (s : State) (c : Word) (e : CmdError) : (s.completeError c e).powerOns = s.powerOns := rfl
@[simp] theorem State.completeError_inputs (s : State) (c : Word) (e : CmdError) : (s.completeError c e).inputs = s.inputs := rfl
@[simp] theorem State.completeError_turns (s : State) (c : Word) (e : CmdError) : (s.completeError c e).turns = s.turns := rfl
@[simp] theorem State.completeError_readData (s : State) (c : Word) (e : CmdError) : (s.completeError c e).readData = s.readData := rfl
@[simp] theorem State.completeError_octet (s : State) (c : Word) (e : CmdError) (i : Nat) : (s.completeError c e).octet i = s.octet i := rfl

/-! ### accept -/

@[simp] theorem State.accept_params (s : State) (c : Word) : (s.accept c).params = s.params := rfl
@[simp] theorem State.accept_ctrlIE (s : State) (c : Word) : (s.accept c).ctrlIE = s.ctrlIE := rfl
@[simp] theorem State.accept_cmd (s : State) (c : Word) : (s.accept c).cmd = c := rfl
@[simp] theorem State.accept_status (s : State) (c : Word) : (s.accept c).status = { s.status with busy := true, done := false } := rfl
@[simp] theorem State.accept_errCmd (s : State) (c : Word) : (s.accept c).errCmd = s.errCmd := rfl
@[simp] theorem State.accept_frameLen (s : State) (c : Word) : (s.accept c).frameLen = s.frameLen := rfl
@[simp] theorem State.accept_argStart (s : State) (c : Word) : (s.accept c).argStart = s.argStart := rfl
@[simp] theorem State.accept_argLen (s : State) (c : Word) : (s.accept c).argLen = s.argLen := rfl
@[simp] theorem State.accept_argSkip (s : State) (c : Word) : (s.accept c).argSkip = s.argSkip := rfl
@[simp] theorem State.accept_acc (s : State) (c : Word) : (s.accept c).acc = s.acc := rfl
@[simp] theorem State.accept_csumRes (s : State) (c : Word) : (s.accept c).csumRes = s.csumRes := rfl
@[simp] theorem State.accept_xResLo (s : State) (c : Word) : (s.accept c).xResLo = s.xResLo := rfl
@[simp] theorem State.accept_xResHi (s : State) (c : Word) : (s.accept c).xResHi = s.xResHi := rfl
@[simp] theorem State.accept_ipCsumCalc (s : State) (c : Word) : (s.accept c).ipCsumCalc = s.ipCsumCalc := rfl
@[simp] theorem State.accept_tcpCsumCalc (s : State) (c : Word) : (s.accept c).tcpCsumCalc = s.tcpCsumCalc := rfl
@[simp] theorem State.accept_eth (s : State) (c : Word) : (s.accept c).eth = s.eth := rfl
@[simp] theorem State.accept_ip (s : State) (c : Word) : (s.accept c).ip = s.ip := rfl
@[simp] theorem State.accept_tcp (s : State) (c : Word) : (s.accept c).tcp = s.tcp := rfl
@[simp] theorem State.accept_ph (s : State) (c : Word) : (s.accept c).ph = s.ph := rfl
@[simp] theorem State.accept_buffer (s : State) (c : Word) : (s.accept c).buffer = s.buffer := rfl
@[simp] theorem State.accept_pending (s : State) (c : Word) : (s.accept c).pending = some c := rfl
@[simp] theorem State.accept_stage (s : State) (c : Word) : (s.accept c).stage = s.stage := rfl
@[simp] theorem State.accept_powerOns (s : State) (c : Word) : (s.accept c).powerOns = s.powerOns := rfl
@[simp] theorem State.accept_inputs (s : State) (c : Word) : (s.accept c).inputs = s.inputs := rfl
@[simp] theorem State.accept_turns (s : State) (c : Word) : (s.accept c).turns = s.turns := rfl
@[simp] theorem State.accept_readData (s : State) (c : Word) : (s.accept c).readData = s.readData := rfl
@[simp] theorem State.accept_octet (s : State) (c : Word) (i : Nat) : (s.accept c).octet i = s.octet i := rfl

/-! ### softReset -/

@[simp] theorem State.softReset_params (s : State) : s.softReset.params = s.params := rfl
@[simp] theorem State.softReset_ctrlIE (s : State) : s.softReset.ctrlIE = false := rfl
@[simp] theorem State.softReset_cmd (s : State) : s.softReset.cmd = 0 := rfl
@[simp] theorem State.softReset_status (s : State) : s.softReset.status = Status.reset := rfl
@[simp] theorem State.softReset_errCmd (s : State) : s.softReset.errCmd = 0 := rfl
@[simp] theorem State.softReset_frameLen (s : State) : s.softReset.frameLen = 0 := rfl
@[simp] theorem State.softReset_argStart (s : State) : s.softReset.argStart = 0 := rfl
@[simp] theorem State.softReset_argLen (s : State) : s.softReset.argLen = 0 := rfl
@[simp] theorem State.softReset_argSkip (s : State) : s.softReset.argSkip = 0 := rfl
@[simp] theorem State.softReset_acc (s : State) : s.softReset.acc = 0 := rfl
@[simp] theorem State.softReset_csumRes (s : State) : s.softReset.csumRes = 0 := rfl
@[simp] theorem State.softReset_xResLo (s : State) : s.softReset.xResLo = 0 := rfl
@[simp] theorem State.softReset_xResHi (s : State) : s.softReset.xResHi = 0 := rfl
@[simp] theorem State.softReset_ipCsumCalc (s : State) : s.softReset.ipCsumCalc = 0 := rfl
@[simp] theorem State.softReset_tcpCsumCalc (s : State) : s.softReset.tcpCsumCalc = 0 := rfl
@[simp] theorem State.softReset_eth (s : State) : s.softReset.eth = EthRegs.reset := rfl
@[simp] theorem State.softReset_ip (s : State) : s.softReset.ip = IpRegs.reset := rfl
@[simp] theorem State.softReset_tcp (s : State) : s.softReset.tcp = TcpRegs.reset := rfl
@[simp] theorem State.softReset_ph (s : State) : s.softReset.ph = PhRegs.reset := rfl
@[simp] theorem State.softReset_buffer (s : State) : s.softReset.buffer = s.buffer := rfl
@[simp] theorem State.softReset_pending (s : State) : s.softReset.pending = none := rfl
@[simp] theorem State.softReset_stage (s : State) : s.softReset.stage = none := rfl
@[simp] theorem State.softReset_powerOns (s : State) : s.softReset.powerOns = s.powerOns := rfl
@[simp] theorem State.softReset_inputs (s : State) : s.softReset.inputs = s.inputs := rfl
@[simp] theorem State.softReset_turns (s : State) : s.softReset.turns = s.turns := rfl
@[simp] theorem State.softReset_readData (s : State) : s.softReset.readData = s.readData := rfl
@[simp] theorem State.softReset_octet (s : State) (i : Nat) : s.softReset.octet i = s.octet i := rfl

/-! ### powerOnReset -/

@[simp] theorem State.powerOnReset_params (s : State) : s.powerOnReset.params = s.params := rfl
@[simp] theorem State.powerOnReset_ctrlIE (s : State) : s.powerOnReset.ctrlIE = false := rfl
@[simp] theorem State.powerOnReset_cmd (s : State) : s.powerOnReset.cmd = 0 := rfl
@[simp] theorem State.powerOnReset_status (s : State) : s.powerOnReset.status = Status.reset := rfl
@[simp] theorem State.powerOnReset_errCmd (s : State) : s.powerOnReset.errCmd = 0 := rfl
@[simp] theorem State.powerOnReset_frameLen (s : State) : s.powerOnReset.frameLen = 0 := rfl
@[simp] theorem State.powerOnReset_argStart (s : State) : s.powerOnReset.argStart = 0 := rfl
@[simp] theorem State.powerOnReset_argLen (s : State) : s.powerOnReset.argLen = 0 := rfl
@[simp] theorem State.powerOnReset_argSkip (s : State) : s.powerOnReset.argSkip = 0 := rfl
@[simp] theorem State.powerOnReset_acc (s : State) : s.powerOnReset.acc = 0 := rfl
@[simp] theorem State.powerOnReset_csumRes (s : State) : s.powerOnReset.csumRes = 0 := rfl
@[simp] theorem State.powerOnReset_xResLo (s : State) : s.powerOnReset.xResLo = 0 := rfl
@[simp] theorem State.powerOnReset_xResHi (s : State) : s.powerOnReset.xResHi = 0 := rfl
@[simp] theorem State.powerOnReset_ipCsumCalc (s : State) : s.powerOnReset.ipCsumCalc = 0 := rfl
@[simp] theorem State.powerOnReset_tcpCsumCalc (s : State) : s.powerOnReset.tcpCsumCalc = 0 := rfl
@[simp] theorem State.powerOnReset_eth (s : State) : s.powerOnReset.eth = EthRegs.reset := rfl
@[simp] theorem State.powerOnReset_ip (s : State) : s.powerOnReset.ip = IpRegs.reset := rfl
@[simp] theorem State.powerOnReset_tcp (s : State) : s.powerOnReset.tcp = TcpRegs.reset := rfl
@[simp] theorem State.powerOnReset_ph (s : State) : s.powerOnReset.ph = PhRegs.reset := rfl
@[simp] theorem State.powerOnReset_buffer (s : State) : s.powerOnReset.buffer = [] := rfl
@[simp] theorem State.powerOnReset_pending (s : State) : s.powerOnReset.pending = none := rfl
@[simp] theorem State.powerOnReset_stage (s : State) : s.powerOnReset.stage = none := rfl
@[simp] theorem State.powerOnReset_powerOns (s : State) : s.powerOnReset.powerOns = s.powerOns + 1 := rfl
@[simp] theorem State.powerOnReset_inputs (s : State) : s.powerOnReset.inputs = s.inputs := rfl
@[simp] theorem State.powerOnReset_turns (s : State) : s.powerOnReset.turns = s.turns := rfl
@[simp] theorem State.powerOnReset_readData (s : State) : s.powerOnReset.readData = s.readData := rfl

/-! ### setXRes -/

@[simp] theorem State.setXRes_params (s : State) (v : Nat) : (s.setXRes v).params = s.params := rfl
@[simp] theorem State.setXRes_ctrlIE (s : State) (v : Nat) : (s.setXRes v).ctrlIE = s.ctrlIE := rfl
@[simp] theorem State.setXRes_cmd (s : State) (v : Nat) : (s.setXRes v).cmd = s.cmd := rfl
@[simp] theorem State.setXRes_status (s : State) (v : Nat) : (s.setXRes v).status = s.status := rfl
@[simp] theorem State.setXRes_errCmd (s : State) (v : Nat) : (s.setXRes v).errCmd = s.errCmd := rfl
@[simp] theorem State.setXRes_frameLen (s : State) (v : Nat) : (s.setXRes v).frameLen = s.frameLen := rfl
@[simp] theorem State.setXRes_argStart (s : State) (v : Nat) : (s.setXRes v).argStart = s.argStart := rfl
@[simp] theorem State.setXRes_argLen (s : State) (v : Nat) : (s.setXRes v).argLen = s.argLen := rfl
@[simp] theorem State.setXRes_argSkip (s : State) (v : Nat) : (s.setXRes v).argSkip = s.argSkip := rfl
@[simp] theorem State.setXRes_acc (s : State) (v : Nat) : (s.setXRes v).acc = s.acc := rfl
@[simp] theorem State.setXRes_csumRes (s : State) (v : Nat) : (s.setXRes v).csumRes = s.csumRes := rfl
@[simp] theorem State.setXRes_xResLo (s : State) (v : Nat) : (s.setXRes v).xResLo = (BitVec.ofNat 64 v).extractLsb' 0 32 := rfl
@[simp] theorem State.setXRes_xResHi (s : State) (v : Nat) : (s.setXRes v).xResHi = (BitVec.ofNat 64 v).extractLsb' 32 32 := rfl
@[simp] theorem State.setXRes_ipCsumCalc (s : State) (v : Nat) : (s.setXRes v).ipCsumCalc = s.ipCsumCalc := rfl
@[simp] theorem State.setXRes_tcpCsumCalc (s : State) (v : Nat) : (s.setXRes v).tcpCsumCalc = s.tcpCsumCalc := rfl
@[simp] theorem State.setXRes_eth (s : State) (v : Nat) : (s.setXRes v).eth = s.eth := rfl
@[simp] theorem State.setXRes_ip (s : State) (v : Nat) : (s.setXRes v).ip = s.ip := rfl
@[simp] theorem State.setXRes_tcp (s : State) (v : Nat) : (s.setXRes v).tcp = s.tcp := rfl
@[simp] theorem State.setXRes_ph (s : State) (v : Nat) : (s.setXRes v).ph = s.ph := rfl
@[simp] theorem State.setXRes_buffer (s : State) (v : Nat) : (s.setXRes v).buffer = s.buffer := rfl
@[simp] theorem State.setXRes_pending (s : State) (v : Nat) : (s.setXRes v).pending = s.pending := rfl
@[simp] theorem State.setXRes_stage (s : State) (v : Nat) : (s.setXRes v).stage = s.stage := rfl
@[simp] theorem State.setXRes_powerOns (s : State) (v : Nat) : (s.setXRes v).powerOns = s.powerOns := rfl
@[simp] theorem State.setXRes_inputs (s : State) (v : Nat) : (s.setXRes v).inputs = s.inputs := rfl
@[simp] theorem State.setXRes_turns (s : State) (v : Nat) : (s.setXRes v).turns = s.turns := rfl
@[simp] theorem State.setXRes_readData (s : State) (v : Nat) : (s.setXRes v).readData = s.readData := rfl
@[simp] theorem State.setXRes_octet (s : State) (v : Nat) (i : Nat) : (s.setXRes v).octet i = s.octet i := rfl

/-! ### returnData -/

@[simp] theorem State.returnData_params (s : State) (d : BusData) : (s.returnData d).params = s.params := rfl
@[simp] theorem State.returnData_ctrlIE (s : State) (d : BusData) : (s.returnData d).ctrlIE = s.ctrlIE := rfl
@[simp] theorem State.returnData_cmd (s : State) (d : BusData) : (s.returnData d).cmd = s.cmd := rfl
@[simp] theorem State.returnData_status (s : State) (d : BusData) : (s.returnData d).status = s.status := rfl
@[simp] theorem State.returnData_errCmd (s : State) (d : BusData) : (s.returnData d).errCmd = s.errCmd := rfl
@[simp] theorem State.returnData_frameLen (s : State) (d : BusData) : (s.returnData d).frameLen = s.frameLen := rfl
@[simp] theorem State.returnData_argStart (s : State) (d : BusData) : (s.returnData d).argStart = s.argStart := rfl
@[simp] theorem State.returnData_argLen (s : State) (d : BusData) : (s.returnData d).argLen = s.argLen := rfl
@[simp] theorem State.returnData_argSkip (s : State) (d : BusData) : (s.returnData d).argSkip = s.argSkip := rfl
@[simp] theorem State.returnData_acc (s : State) (d : BusData) : (s.returnData d).acc = s.acc := rfl
@[simp] theorem State.returnData_csumRes (s : State) (d : BusData) : (s.returnData d).csumRes = s.csumRes := rfl
@[simp] theorem State.returnData_xResLo (s : State) (d : BusData) : (s.returnData d).xResLo = s.xResLo := rfl
@[simp] theorem State.returnData_xResHi (s : State) (d : BusData) : (s.returnData d).xResHi = s.xResHi := rfl
@[simp] theorem State.returnData_ipCsumCalc (s : State) (d : BusData) : (s.returnData d).ipCsumCalc = s.ipCsumCalc := rfl
@[simp] theorem State.returnData_tcpCsumCalc (s : State) (d : BusData) : (s.returnData d).tcpCsumCalc = s.tcpCsumCalc := rfl
@[simp] theorem State.returnData_eth (s : State) (d : BusData) : (s.returnData d).eth = s.eth := rfl
@[simp] theorem State.returnData_ip (s : State) (d : BusData) : (s.returnData d).ip = s.ip := rfl
@[simp] theorem State.returnData_tcp (s : State) (d : BusData) : (s.returnData d).tcp = s.tcp := rfl
@[simp] theorem State.returnData_ph (s : State) (d : BusData) : (s.returnData d).ph = s.ph := rfl
@[simp] theorem State.returnData_buffer (s : State) (d : BusData) : (s.returnData d).buffer = s.buffer := rfl
@[simp] theorem State.returnData_pending (s : State) (d : BusData) : (s.returnData d).pending = s.pending := rfl
@[simp] theorem State.returnData_stage (s : State) (d : BusData) : (s.returnData d).stage = s.stage := rfl
@[simp] theorem State.returnData_powerOns (s : State) (d : BusData) : (s.returnData d).powerOns = s.powerOns := rfl
@[simp] theorem State.returnData_inputs (s : State) (d : BusData) : (s.returnData d).inputs = s.inputs := rfl
@[simp] theorem State.returnData_turns (s : State) (d : BusData) : (s.returnData d).turns = s.turns := rfl
@[simp] theorem State.returnData_readData (s : State) (d : BusData) : (s.returnData d).readData = d :: s.readData := rfl
@[simp] theorem State.returnData_octet (s : State) (d : BusData) (i : Nat) : (s.returnData d).octet i = s.octet i := rfl

/-! ### The invalidation sets -/

@[simp] theorem Status.invalidate_decEth_busy (st : Status) : (st.invalidate .decEth).busy = st.busy := rfl
@[simp] theorem Status.invalidate_decEth_done (st : Status) : (st.invalidate .decEth).done = st.done := rfl
@[simp] theorem Status.invalidate_decEth_err (st : Status) : (st.invalidate .decEth).err = st.err := rfl
@[simp] theorem Status.invalidate_decEth_errCode (st : Status) : (st.invalidate .decEth).errCode = st.errCode := rfl
@[simp] theorem Status.invalidate_decEth_ethV (st : Status) : (st.invalidate .decEth).ethV = false := rfl
@[simp] theorem Status.invalidate_decEth_ipV (st : Status) : (st.invalidate .decEth).ipV = false := rfl
@[simp] theorem Status.invalidate_decEth_tcpV (st : Status) : (st.invalidate .decEth).tcpV = false := rfl
@[simp] theorem Status.invalidate_decEth_phV (st : Status) : (st.invalidate .decEth).phV = false := rfl
@[simp] theorem Status.invalidate_decEth_ipCkV (st : Status) : (st.invalidate .decEth).ipCkV = false := rfl
@[simp] theorem Status.invalidate_decEth_tcpCkV (st : Status) : (st.invalidate .decEth).tcpCkV = false := rfl
@[simp] theorem Status.invalidate_decEth_ipOk (st : Status) : (st.invalidate .decEth).ipOk = false := rfl
@[simp] theorem Status.invalidate_decEth_tcpOk (st : Status) : (st.invalidate .decEth).tcpOk = false := rfl
@[simp] theorem Status.invalidate_decEth_frameV (st : Status) : (st.invalidate .decEth).frameV = false := rfl
@[simp] theorem Status.invalidate_decEth_cmdOvr (st : Status) : (st.invalidate .decEth).cmdOvr = st.cmdOvr := rfl
@[simp] theorem Status.invalidate_decEth_wrIgn (st : Status) : (st.invalidate .decEth).wrIgn = st.wrIgn := rfl

@[simp] theorem Status.invalidate_decIp_busy (st : Status) : (st.invalidate .decIp).busy = st.busy := rfl
@[simp] theorem Status.invalidate_decIp_done (st : Status) : (st.invalidate .decIp).done = st.done := rfl
@[simp] theorem Status.invalidate_decIp_err (st : Status) : (st.invalidate .decIp).err = st.err := rfl
@[simp] theorem Status.invalidate_decIp_errCode (st : Status) : (st.invalidate .decIp).errCode = st.errCode := rfl
@[simp] theorem Status.invalidate_decIp_ethV (st : Status) : (st.invalidate .decIp).ethV = st.ethV := rfl
@[simp] theorem Status.invalidate_decIp_ipV (st : Status) : (st.invalidate .decIp).ipV = false := rfl
@[simp] theorem Status.invalidate_decIp_tcpV (st : Status) : (st.invalidate .decIp).tcpV = false := rfl
@[simp] theorem Status.invalidate_decIp_phV (st : Status) : (st.invalidate .decIp).phV = false := rfl
@[simp] theorem Status.invalidate_decIp_ipCkV (st : Status) : (st.invalidate .decIp).ipCkV = false := rfl
@[simp] theorem Status.invalidate_decIp_tcpCkV (st : Status) : (st.invalidate .decIp).tcpCkV = false := rfl
@[simp] theorem Status.invalidate_decIp_ipOk (st : Status) : (st.invalidate .decIp).ipOk = false := rfl
@[simp] theorem Status.invalidate_decIp_tcpOk (st : Status) : (st.invalidate .decIp).tcpOk = false := rfl
@[simp] theorem Status.invalidate_decIp_frameV (st : Status) : (st.invalidate .decIp).frameV = false := rfl
@[simp] theorem Status.invalidate_decIp_cmdOvr (st : Status) : (st.invalidate .decIp).cmdOvr = st.cmdOvr := rfl
@[simp] theorem Status.invalidate_decIp_wrIgn (st : Status) : (st.invalidate .decIp).wrIgn = st.wrIgn := rfl

@[simp] theorem Status.invalidate_decTcp_busy (st : Status) : (st.invalidate .decTcp).busy = st.busy := rfl
@[simp] theorem Status.invalidate_decTcp_done (st : Status) : (st.invalidate .decTcp).done = st.done := rfl
@[simp] theorem Status.invalidate_decTcp_err (st : Status) : (st.invalidate .decTcp).err = st.err := rfl
@[simp] theorem Status.invalidate_decTcp_errCode (st : Status) : (st.invalidate .decTcp).errCode = st.errCode := rfl
@[simp] theorem Status.invalidate_decTcp_ethV (st : Status) : (st.invalidate .decTcp).ethV = st.ethV := rfl
@[simp] theorem Status.invalidate_decTcp_ipV (st : Status) : (st.invalidate .decTcp).ipV = st.ipV := rfl
@[simp] theorem Status.invalidate_decTcp_tcpV (st : Status) : (st.invalidate .decTcp).tcpV = false := rfl
@[simp] theorem Status.invalidate_decTcp_phV (st : Status) : (st.invalidate .decTcp).phV = false := rfl
@[simp] theorem Status.invalidate_decTcp_ipCkV (st : Status) : (st.invalidate .decTcp).ipCkV = st.ipCkV := rfl
@[simp] theorem Status.invalidate_decTcp_tcpCkV (st : Status) : (st.invalidate .decTcp).tcpCkV = false := rfl
@[simp] theorem Status.invalidate_decTcp_ipOk (st : Status) : (st.invalidate .decTcp).ipOk = st.ipOk := rfl
@[simp] theorem Status.invalidate_decTcp_tcpOk (st : Status) : (st.invalidate .decTcp).tcpOk = false := rfl
@[simp] theorem Status.invalidate_decTcp_frameV (st : Status) : (st.invalidate .decTcp).frameV = false := rfl
@[simp] theorem Status.invalidate_decTcp_cmdOvr (st : Status) : (st.invalidate .decTcp).cmdOvr = st.cmdOvr := rfl
@[simp] theorem Status.invalidate_decTcp_wrIgn (st : Status) : (st.invalidate .decTcp).wrIgn = st.wrIgn := rfl

@[simp] theorem Status.invalidate_phBuild_busy (st : Status) : (st.invalidate .phBuild).busy = st.busy := rfl
@[simp] theorem Status.invalidate_phBuild_done (st : Status) : (st.invalidate .phBuild).done = st.done := rfl
@[simp] theorem Status.invalidate_phBuild_err (st : Status) : (st.invalidate .phBuild).err = st.err := rfl
@[simp] theorem Status.invalidate_phBuild_errCode (st : Status) : (st.invalidate .phBuild).errCode = st.errCode := rfl
@[simp] theorem Status.invalidate_phBuild_ethV (st : Status) : (st.invalidate .phBuild).ethV = st.ethV := rfl
@[simp] theorem Status.invalidate_phBuild_ipV (st : Status) : (st.invalidate .phBuild).ipV = st.ipV := rfl
@[simp] theorem Status.invalidate_phBuild_tcpV (st : Status) : (st.invalidate .phBuild).tcpV = st.tcpV := rfl
@[simp] theorem Status.invalidate_phBuild_phV (st : Status) : (st.invalidate .phBuild).phV = false := rfl
@[simp] theorem Status.invalidate_phBuild_ipCkV (st : Status) : (st.invalidate .phBuild).ipCkV = st.ipCkV := rfl
@[simp] theorem Status.invalidate_phBuild_tcpCkV (st : Status) : (st.invalidate .phBuild).tcpCkV = false := rfl
@[simp] theorem Status.invalidate_phBuild_ipOk (st : Status) : (st.invalidate .phBuild).ipOk = st.ipOk := rfl
@[simp] theorem Status.invalidate_phBuild_tcpOk (st : Status) : (st.invalidate .phBuild).tcpOk = false := rfl
@[simp] theorem Status.invalidate_phBuild_frameV (st : Status) : (st.invalidate .phBuild).frameV = false := rfl
@[simp] theorem Status.invalidate_phBuild_cmdOvr (st : Status) : (st.invalidate .phBuild).cmdOvr = st.cmdOvr := rfl
@[simp] theorem Status.invalidate_phBuild_wrIgn (st : Status) : (st.invalidate .phBuild).wrIgn = st.wrIgn := rfl

@[simp] theorem Status.invalidate_chkIp_busy (st : Status) : (st.invalidate .chkIp).busy = st.busy := rfl
@[simp] theorem Status.invalidate_chkIp_done (st : Status) : (st.invalidate .chkIp).done = st.done := rfl
@[simp] theorem Status.invalidate_chkIp_err (st : Status) : (st.invalidate .chkIp).err = st.err := rfl
@[simp] theorem Status.invalidate_chkIp_errCode (st : Status) : (st.invalidate .chkIp).errCode = st.errCode := rfl
@[simp] theorem Status.invalidate_chkIp_ethV (st : Status) : (st.invalidate .chkIp).ethV = st.ethV := rfl
@[simp] theorem Status.invalidate_chkIp_ipV (st : Status) : (st.invalidate .chkIp).ipV = st.ipV := rfl
@[simp] theorem Status.invalidate_chkIp_tcpV (st : Status) : (st.invalidate .chkIp).tcpV = st.tcpV := rfl
@[simp] theorem Status.invalidate_chkIp_phV (st : Status) : (st.invalidate .chkIp).phV = st.phV := rfl
@[simp] theorem Status.invalidate_chkIp_ipCkV (st : Status) : (st.invalidate .chkIp).ipCkV = false := rfl
@[simp] theorem Status.invalidate_chkIp_tcpCkV (st : Status) : (st.invalidate .chkIp).tcpCkV = st.tcpCkV := rfl
@[simp] theorem Status.invalidate_chkIp_ipOk (st : Status) : (st.invalidate .chkIp).ipOk = false := rfl
@[simp] theorem Status.invalidate_chkIp_tcpOk (st : Status) : (st.invalidate .chkIp).tcpOk = st.tcpOk := rfl
@[simp] theorem Status.invalidate_chkIp_frameV (st : Status) : (st.invalidate .chkIp).frameV = false := rfl
@[simp] theorem Status.invalidate_chkIp_cmdOvr (st : Status) : (st.invalidate .chkIp).cmdOvr = st.cmdOvr := rfl
@[simp] theorem Status.invalidate_chkIp_wrIgn (st : Status) : (st.invalidate .chkIp).wrIgn = st.wrIgn := rfl

@[simp] theorem Status.invalidate_chkTcp_busy (st : Status) : (st.invalidate .chkTcp).busy = st.busy := rfl
@[simp] theorem Status.invalidate_chkTcp_done (st : Status) : (st.invalidate .chkTcp).done = st.done := rfl
@[simp] theorem Status.invalidate_chkTcp_err (st : Status) : (st.invalidate .chkTcp).err = st.err := rfl
@[simp] theorem Status.invalidate_chkTcp_errCode (st : Status) : (st.invalidate .chkTcp).errCode = st.errCode := rfl
@[simp] theorem Status.invalidate_chkTcp_ethV (st : Status) : (st.invalidate .chkTcp).ethV = st.ethV := rfl
@[simp] theorem Status.invalidate_chkTcp_ipV (st : Status) : (st.invalidate .chkTcp).ipV = st.ipV := rfl
@[simp] theorem Status.invalidate_chkTcp_tcpV (st : Status) : (st.invalidate .chkTcp).tcpV = st.tcpV := rfl
@[simp] theorem Status.invalidate_chkTcp_phV (st : Status) : (st.invalidate .chkTcp).phV = st.phV := rfl
@[simp] theorem Status.invalidate_chkTcp_ipCkV (st : Status) : (st.invalidate .chkTcp).ipCkV = st.ipCkV := rfl
@[simp] theorem Status.invalidate_chkTcp_tcpCkV (st : Status) : (st.invalidate .chkTcp).tcpCkV = false := rfl
@[simp] theorem Status.invalidate_chkTcp_ipOk (st : Status) : (st.invalidate .chkTcp).ipOk = st.ipOk := rfl
@[simp] theorem Status.invalidate_chkTcp_tcpOk (st : Status) : (st.invalidate .chkTcp).tcpOk = false := rfl
@[simp] theorem Status.invalidate_chkTcp_frameV (st : Status) : (st.invalidate .chkTcp).frameV = false := rfl
@[simp] theorem Status.invalidate_chkTcp_cmdOvr (st : Status) : (st.invalidate .chkTcp).cmdOvr = st.cmdOvr := rfl
@[simp] theorem Status.invalidate_chkTcp_wrIgn (st : Status) : (st.invalidate .chkTcp).wrIgn = st.wrIgn := rfl

end Sys2Proof.Machine
end

