-- ==== Sys2Proof/Laws/Bus.lean ====
section
/-! SUPPORT. The bus: the register map, what an access answers, and what each kind of write can do. -/

namespace Sys2Proof.Machine

/-! ### The register map -/

theorem Reg.at?_offset (r : Reg) : Reg.at? r.offset = some r := by cases r <;> rfl

theorem Reg.offset_lt (r : Reg) : r.offset < Config.bufferBase := by cases r <;> decide

theorem Reg.offset_mod (r : Reg) : r.offset % 4 = 0 := by cases r <;> rfl

theorem Reg.mem_all (r : Reg) : r ∈ Reg.all := by cases r <;> decide

/-- The register found at an offset is the one that lies there. -/
theorem Reg.offset_of_at? {offset : Nat} {r : Reg} (h : Reg.at? offset = some r) : r.offset = offset := by
  have := List.find?_some h
  simpa using this

theorem Reg.at?_eq_none {offset : Nat} (h : ∀ r : Reg, offset ≠ r.offset) : Reg.at? offset = none := by
  rw [Reg.at?, List.find?_eq_none]
  intro r _ e
  exact h r (beq_iff_eq.mp e).symm

/-! ### Offsets -/

/-- The register region lies inside the bus's offsets, whatever FRAME_BYTES is. -/
theorem bufferBase_le_addrBits (p : Config.Params) : Config.bufferBase ≤ 2 ^ addrBits p := by
  have hb : Config.bufferBase = 0x1000 := rfl
  have h : (2 : Nat) ^ 11 ≤ Config.bufferBase + p.frameBytes - 1 := by omega
  have h' : 11 ≤ Nat.log2 (Config.bufferBase + p.frameBytes - 1) := (Nat.le_log2 (by omega)).mpr h
  calc Config.bufferBase = 2 ^ 12 := rfl
    _ ≤ 2 ^ addrBits p := Nat.pow_le_pow_right (by decide) (by rw [addrBits]; omega)

theorem bufferEnd_le_addrBits (p : Config.Params) : bufferEnd p ≤ 2 ^ addrBits p := by
  have : Config.bufferBase + p.frameBytes - 1 < 2 ^ (Nat.log2 (Config.bufferBase + p.frameBytes - 1) + 1) :=
    Nat.lt_log2_self
  rw [bufferEnd, addrBits]
  omega

/-! ### An access -/

theorem busAccess_next {s effect t : State} {offset : Nat} {adm : Bool}
    (h : busAccess s offset adm effect = .next t) : t = effect ∧ offset < 2 ^ addrBits s.params ∧ adm = true := by
  unfold busAccess at h
  split at h
  · cases h
  · split at h
    · rename_i h₁ h₂
      injection h with h
      exact ⟨h.symm, by omega, h₂⟩
    · cases h

theorem busAccess_of_admitted {s effect : State} {offset : Nat} {adm : Bool} (h : offset < 2 ^ addrBits s.params)
    (ha : adm = true) : busAccess s offset adm effect = .next effect := by
  rw [busAccess, if_neg (by omega), if_pos ha]

theorem busAccess_of_not_admitted {s effect : State} {offset : Nat} {adm : Bool}
    (h : offset < 2 ^ addrBits s.params) (ha : adm = false) :
    busAccess s offset adm effect = .refused (.accessNotAdmitted offset) := by
  rw [busAccess, if_neg (by omega), if_neg (by simp [ha])]

theorem admitted32_register {p : Config.Params} {offset : Nat} (h : offset < Config.bufferBase)
    (ha : offset % 4 = 0) : admitted32 p offset = true := by
  simp [admitted32, h, ha]

/-! ### Writes that are admitted -/

/-- Taking the turn and the input changes nothing of the block. -/
theorem State.hostDoes_same {s u : State} {a : Input} (h : s.hostDoes a u) :
    u.status = s.status ∧ u.params = s.params ∧ u.pending = s.pending ∧ (∀ i, u.octet i = s.octet i) ∧
      ∀ r, u.readReg r = s.readReg r := by
  obtain ⟨-, r, -, rfl⟩ := h
  exact ⟨rfl, rfl, rfl, fun _ => rfl, fun r => by cases r <;> rfl⟩

theorem State.perform_writeReg (s : State) (r : Reg) (v : Word) :
    s.perform (.w32 r.offset v) = .next (s.writeReg r v) := by
  have h := r.offset_lt
  show busAccess _ _ _ _ = _
  rw [busAccess_of_admitted (lt_of_lt_of_le h (bufferBase_le_addrBits _)) (admitted32_register h r.offset_mod),
    State.write32, if_pos h, Reg.at?_offset]

theorem State.perform_writeWord {s : State} {i : Nat} (ha : i % 4 = 0) (hi : i + 4 ≤ s.params.frameBytes) (v : Word) :
    s.perform (.w32 (0x1000 + i) v) = .next (s.writeBuffer i (lanesOf v)) := by
  have e := bufferEnd_le_addrBits s.params
  have hb : Config.bufferBase = 0x1000 := rfl
  have he : bufferEnd s.params = 0x1000 + s.params.frameBytes := rfl
  show busAccess _ _ _ _ = _
  rw [busAccess_of_admitted (by omega) (by simp [admitted32, he, hb]; omega), State.write32, if_neg (by omega),
    if_pos (by omega), hb, show 0x1000 + i - 0x1000 = i by omega]

theorem State.perform_writeOctet {s : State} {i : Nat} (hi : i < s.params.frameBytes) (v : Octet) :
    s.perform (.w8 (0x1000 + i) v) = .next (s.writeBuffer i [v]) := by
  have e := bufferEnd_le_addrBits s.params
  have hb : Config.bufferBase = 0x1000 := rfl
  have he : bufferEnd s.params = 0x1000 + s.params.frameBytes := rfl
  show busAccess _ _ _ _ = _
  rw [busAccess_of_admitted (by omega) (by simp [admitted8, hb]), State.write8, if_pos (by omega), hb,
    show 0x1000 + i - 0x1000 = i by omega]

/-- An admitted write to the unmapped region is ignored (R97; log 7). -/
theorem State.perform_unmapped {s : State} {offset : Nat} (hi : 0x1000 + s.params.frameBytes ≤ offset)
    (ho : offset < 2 ^ addrBits s.params) :
    (∀ v, offset % 4 = 0 → s.perform (.w32 offset v) = .next s) ∧ ∀ v, s.perform (.w8 offset v) = .next s := by
  have hb : Config.bufferBase = 0x1000 := rfl
  have he : bufferEnd s.params = 0x1000 + s.params.frameBytes := rfl
  refine ⟨fun v ha => ?_, fun v => ?_⟩ <;> show busAccess _ _ _ _ = _
  · rw [busAccess_of_admitted ho (by simp [admitted32, he, hb, ha]; omega), State.write32, if_neg (by omega),
      if_neg (by omega)]
  · rw [busAccess_of_admitted ho (by simp [admitted8, hb]; omega), State.write8, if_neg (by omega)]

/-! ### What a write can do -/

theorem State.unlessBusy_cases (s : State) (f : State → State) :
    (s.status.busy = true ∧ s.unlessBusy f = s.withStatus { s.status with wrIgn := true }) ∨
    (s.status.busy = false ∧ s.unlessBusy f = f s) := by
  unfold State.unlessBusy
  split
  · exact .inl ⟨‹_›, rfl⟩
  · rename_i h
    exact .inr ⟨by simpa using h, rfl⟩

/-- All a write to a register or to the buffer can do: a soft reset; IE; an accepted command; a change of STATUS that
clears or sets its event bits; a new FRAME_LEN or new octets with the results invalidated; a new ARG register; or
nothing. -/
inductive HostWrite (s : State) : State → Prop
  | softReset : HostWrite s s.softReset
  | ctrl (b : Bool) : HostWrite s { s with ctrlIE := b }
  | accept (c : Word) (h : s.status.busy = false) : HostWrite s (s.accept c)
  | cmdOvr (h : s.status.busy = true) : HostWrite s (s.withStatus { s.status with cmdOvr := true })
  | wrIgn (h : s.status.busy = true) : HostWrite s (s.withStatus { s.status with wrIgn := true })
  | status (v : Word) : HostWrite s (s.withStatus (s.status.writeOneToClear v))
  | frameLen (n : Half) (h : s.status.busy = false) :
      HostWrite s { s with frameLen := n, status := s.status.invalidateAll }
  | argStart (v : Word) (h : s.status.busy = false) : HostWrite s { s with argStart := v }
  | argLen (v : Word) (h : s.status.busy = false) : HostWrite s { s with argLen := v }
  | argSkip (v : Word) (h : s.status.busy = false) : HostWrite s { s with argSkip := v }
  | buffer (i : Nat) (vs : List Octet) (h : s.status.busy = false) (hi : i + vs.length ≤ s.params.frameBytes) :
      HostWrite s { s with buffer := s.buffer.writeOctets i vs, status := s.status.invalidateAll }
  | nothing : HostWrite s s

theorem State.writeReg_cases (s : State) (r : Reg) (v : Word) : HostWrite s (s.writeReg r v) := by
  cases r
  case ctrl =>
    simp only [State.writeReg, State.writeCtrl]
    split
    · exact .softReset
    · exact .ctrl _
  case cmd =>
    simp only [State.writeReg, State.writeCmd]
    split
    · exact .cmdOvr ‹_›
    · rename_i h
      exact .accept v (by simpa using h)
  case status => exact .status v
  case frameLen =>
    obtain ⟨h, e⟩ | ⟨h, e⟩ := s.unlessBusy_cases
      (fun s => { s with frameLen := v.setWidth 16, status := s.status.invalidateAll })
    · simp only [State.writeReg]; rw [e]; exact .wrIgn h
    · simp only [State.writeReg]; rw [e]; exact .frameLen _ h
  case argStart =>
    obtain ⟨h, e⟩ | ⟨h, e⟩ := s.unlessBusy_cases (fun s => { s with argStart := v })
    · simp only [State.writeReg]; rw [e]; exact .wrIgn h
    · simp only [State.writeReg]; rw [e]; exact .argStart v h
  case argLen =>
    obtain ⟨h, e⟩ | ⟨h, e⟩ := s.unlessBusy_cases (fun s => { s with argLen := v })
    · simp only [State.writeReg]; rw [e]; exact .wrIgn h
    · simp only [State.writeReg]; rw [e]; exact .argLen v h
  case argSkip =>
    obtain ⟨h, e⟩ | ⟨h, e⟩ := s.unlessBusy_cases (fun s => { s with argSkip := v })
    · simp only [State.writeReg]; rw [e]; exact .wrIgn h
    · simp only [State.writeReg]; rw [e]; exact .argSkip v h
  all_goals exact .nothing

theorem State.writeBuffer_cases {s : State} {i : Nat} {vs : List Octet} (hi : i + vs.length ≤ s.params.frameBytes) :
    HostWrite s (s.writeBuffer i vs) := by
  obtain ⟨h, e⟩ | ⟨h, e⟩ := s.unlessBusy_cases
    (fun s => { s with buffer := s.buffer.writeOctets i vs, status := s.status.invalidateAll })
  · rw [State.writeBuffer, e]; exact .wrIgn h
  · rw [State.writeBuffer, e]; exact .buffer i vs h hi

theorem State.write32_cases {s : State} {offset : Nat} (ha : admitted32 s.params offset = true) (v : Word) :
    HostWrite s (s.write32 offset v) := by
  unfold State.write32
  split
  · cases Reg.at? offset with
    | none => exact .nothing
    | some r => exact s.writeReg_cases r v
  · rename_i h₁
    split
    · rename_i h₂
      apply State.writeBuffer_cases
      simp only [admitted32, Bool.and_eq_true, Bool.or_eq_true, decide_eq_true_eq] at ha
      simp only [bufferEnd] at ha h₂
      simp only [lanesOf, List.length_cons, List.length_nil]
      omega
    · exact .nothing

theorem State.write8_cases (s : State) (offset : Nat) (v : Octet) : HostWrite s (s.write8 offset v) := by
  unfold State.write8
  split
  · rename_i h
    apply State.writeBuffer_cases
    simp only [bufferEnd] at h
    simp only [List.length_cons, List.length_nil]
    omega
  · exact .nothing

/-- All an input can do where it answers a next state. -/
theorem State.perform_cases {s t : State} {a : Input} (h : s.perform a = .next t) :
    (∃ offset v, a = .w32 offset v ∧ admitted32 s.params offset = true ∧ offset < 2 ^ addrBits s.params ∧
      t = s.write32 offset v ∧ HostWrite s t) ∨
    (∃ offset v, a = .w8 offset v ∧ admitted8 offset = true ∧ offset < 2 ^ addrBits s.params ∧
      t = s.write8 offset v ∧ HostWrite s t) ∨
    (∃ offset, (a = .r32 offset ∨ a = .r8 offset) ∧ ∃ d, t = s.returnData d) ∨
    (a = .wait ∧ t = s.poll) ∨
    (a = .powerOnReset ∧ t = s.powerOnReset) := by
  cases a with
  | w32 offset v =>
    obtain ⟨rfl, h₁, h₂⟩ := busAccess_next h
    exact .inl ⟨offset, v, rfl, h₂, h₁, rfl, State.write32_cases h₂ v⟩
  | w16 offset v => exact absurd (busAccess_next h).2.2 (by decide)
  | w8 offset v =>
    obtain ⟨rfl, h₁, h₂⟩ := busAccess_next h
    exact .inr (.inl ⟨offset, v, rfl, h₂, h₁, rfl, s.write8_cases offset v⟩)
  | r32 offset =>
    obtain ⟨rfl, -, -⟩ := busAccess_next h
    exact .inr (.inr (.inl ⟨offset, .inl rfl, _, rfl⟩))
  | r16 offset => exact absurd (busAccess_next h).2.2 (by decide)
  | r8 offset =>
    obtain ⟨rfl, -, -⟩ := busAccess_next h
    exact .inr (.inr (.inl ⟨offset, .inr rfl, _, rfl⟩))
  | wait =>
    injection h with h
    exact .inr (.inr (.inr (.inl ⟨rfl, h.symm⟩)))
  | powerOnReset =>
    injection h with h
    exact .inr (.inr (.inr (.inr ⟨rfl, h.symm⟩)))

theorem State.poll_cases (s : State) :
    (s.status.busy = true ∧
      s.poll = { s with inputs := .wait :: s.inputs, readData := .word s.status.toWord :: s.readData }) ∨
    (s.status.busy = false ∧ s.poll = { s with readData := .word s.status.toWord :: s.readData }) := by
  unfold State.poll
  split
  · exact .inl ⟨‹_›, rfl⟩
  · rename_i h
    exact .inr ⟨by simpa using h, rfl⟩

end Sys2Proof.Machine
end

