-- ==== Sys2Proof/Laws/Checksum.lean ====
section
/-! SUPPORT. First facts of the one's-complement sum (spec/42_checksum.md R210, R211). -/

namespace Sys2Proof.Machine

theorem foldLoop_of_le {a : Nat} (h : a ≤ 0xFFFF) (fuel : Nat) : foldLoop fuel a = a := by
  cases fuel with
  | zero => rfl
  | succ n => rw [foldLoop, if_neg (by omega)]

theorem foldLoop_of_gt {a : Nat} (h : 0xFFFF < a) (fuel : Nat) :
    foldLoop (fuel + 1) a = foldLoop fuel (a % 0x10000 + a / 0x10000) := by
  rw [foldLoop, if_pos h]

/-- Enough fuel is enough: more changes nothing. -/
theorem foldLoop_fuel {a n m : Nat} (hn : a ≤ n) (hm : a ≤ m) : foldLoop n a = foldLoop m a := by
  induction n generalizing a m with
  | zero => rw [foldLoop_of_le (by omega), foldLoop_of_le (by omega)]
  | succ n ih =>
    by_cases h : 0xFFFF < a
    · obtain ⟨m, rfl⟩ : ∃ k, m = k + 1 := ⟨m - 1, by omega⟩
      rw [foldLoop_of_gt h, foldLoop_of_gt h]
      exact ih (by omega) (by omega)
    · rw [foldLoop_of_le (by omega), foldLoop_of_le (by omega)]

@[simp] theorem accSum_nil (acc : Half) : accSum acc [] = acc := rfl

@[simp] theorem accSum_cons (acc w : Half) (ws : List Half) : accSum acc (w :: ws) = accSum (accAdd acc w) ws := rfl

theorem accSum_append (acc : Half) (ws ws' : List Half) : accSum acc (ws ++ ws') = accSum (accSum acc ws) ws' := by
  simp [accSum]

end Sys2Proof.Machine
end

