-- ==== Sys2Proof/Laws/Frame.lean ====
section
/-! SUPPORT. Big-endian extraction and the views of the frame: bounds, and that a view depends on the octets it covers
and on nothing else. -/

namespace Sys2Proof.Machine

@[simp] theorem bigEndian_zero (base : Nat) (digit : Nat → Nat) (i : Nat) : bigEndian base digit i 0 = 0 := rfl

theorem bigEndian_succ (base : Nat) (digit : Nat → Nat) (i n : Nat) :
    bigEndian base digit i (n + 1) = bigEndian base digit i n * base + digit (i + n) := rfl

theorem bigEndian_lt {base : Nat} {digit : Nat → Nat} (h : ∀ k, digit k < base) (i n : Nat) :
    bigEndian base digit i n < base ^ n := by
  induction n with
  | zero => simp
  | succ n ih =>
    have := h (i + n)
    rw [bigEndian_succ, pow_succ]
    calc bigEndian base digit i n * base + digit (i + n)
        < bigEndian base digit i n * base + base := by omega
      _ = (bigEndian base digit i n + 1) * base := by ring
      _ ≤ base ^ n * base := Nat.mul_le_mul_right _ ih

theorem bigEndian_congr {base : Nat} {d e : Nat → Nat} {i n : Nat} (h : ∀ k, i ≤ k → k < i + n → d k = e k) :
    bigEndian base d i n = bigEndian base e i n := by
  induction n with
  | zero => rfl
  | succ n ih => rw [bigEndian_succ, bigEndian_succ, ih fun k h₁ h₂ => h k h₁ (by omega), h (i + n) (by omega) (by omega)]

theorem State.be_lt (s : State) (i n : Nat) : s.be i n < 256 ^ n :=
  bigEndian_lt (fun k => (s.octet k).isLt) i n

theorem State.nbe_lt (s : State) (i n : Nat) : s.nbe i n < 16 ^ n :=
  bigEndian_lt (fun k => (s.nib k).isLt) i n

theorem State.bbe_lt (s : State) (b n : Nat) : s.bbe b n < 2 ^ n :=
  bigEndian_lt (fun k => by cases s.bit k <;> decide) b n

theorem State.be16_toNat (s : State) (i : Nat) : (s.be16 i).toNat = s.be i 2 := by
  have := s.be_lt i 2
  simp only [State.be16, BitVec.toNat_ofNat]
  omega

theorem State.be32_toNat (s : State) (i : Nat) : (s.be32 i).toNat = s.be i 4 := by
  have := s.be_lt i 4
  simp only [State.be32, BitVec.toNat_ofNat]
  omega

/-- A header length in octets is at most 60. -/
theorem State.ipHlenAt_lt (s : State) (p : Nat) : s.ipHlenAt p < 64 := by
  have := (s.ihlAt p).isLt
  rw [State.ipHlenAt]
  omega

theorem State.tcpHlenAt_lt (s : State) (t : Nat) : s.tcpHlenAt t < 64 := by
  have := (s.doffAt t).isLt
  rw [State.tcpHlenAt]
  omega

/-! ### A view depends only on the octets it covers -/

theorem State.nib_congr {s t : State} {i : Nat} (h : s.octet (i / 2) = t.octet (i / 2)) : s.nib i = t.nib i := by
  simp [State.nib, h]

theorem State.bit_congr {s t : State} {b : Nat} (h : s.octet (b / 8) = t.octet (b / 8)) : s.bit b = t.bit b := by
  have : b / 4 / 2 = b / 8 := by omega
  simp [State.bit, State.nib_congr (s := s) (t := t) (i := b / 4) (by rw [this]; exact h)]

theorem State.be_congr {s t : State} {i n : Nat} (h : ∀ k, i ≤ k → k < i + n → s.octet k = t.octet k) :
    s.be i n = t.be i n :=
  bigEndian_congr fun k h₁ h₂ => by rw [h k h₁ h₂]

theorem State.nbe_congr {s t : State} {i n : Nat} (h : ∀ k, i ≤ 2 * k + 1 → 2 * k < i + n → s.octet k = t.octet k) :
    s.nbe i n = t.nbe i n :=
  bigEndian_congr fun k h₁ h₂ => by rw [State.nib_congr (h (k / 2) (by omega) (by omega))]

theorem State.bbe_congr {s t : State} {b n : Nat} (h : ∀ k, b ≤ 8 * k + 7 → 8 * k < b + n → s.octet k = t.octet k) :
    s.bbe b n = t.bbe b n :=
  bigEndian_congr fun k h₁ h₂ => by rw [State.bit_congr (h (k / 8) (by omega) (by omega))]

theorem State.be16_congr {s t : State} {i : Nat} (h : ∀ k, i ≤ k → k < i + 2 → s.octet k = t.octet k) :
    s.be16 i = t.be16 i := by
  rw [State.be16, State.be16, State.be_congr h]

theorem State.be32_congr {s t : State} {i : Nat} (h : ∀ k, i ≤ k → k < i + 4 → s.octet k = t.octet k) :
    s.be32 i = t.be32 i := by
  rw [State.be32, State.be32, State.be_congr h]

theorem State.segmentWord_toNat (s : State) (t len j : Nat) :
    (s.segmentWord t len j).toNat =
      (s.octet (t + 2 * j)).toNat * 256 + if 2 * j + 1 < len then (s.octet (t + 2 * j + 1)).toNat else 0 := by
  rw [State.segmentWord, BitVec.toNat_append]
  have := (s.octet (t + 2 * j + 1)).isLt
  rw [← Nat.shiftLeft_add_eq_or_of_lt (BitVec.isLt _), Nat.shiftLeft_eq]
  split <;> rfl

end Sys2Proof.Machine
end

