-- ==== Sys2Proof/Laws/Commands.lean ====
section
/-! SUPPORT. Each command body once and for all: which check fails, with the state that goes with it, or the checks
that passed and the commit. Provers cite these `_cases` lemmas instead of unfolding the meanings. -/

namespace Sys2Proof.Machine

/-! ### Recording a completion -/

@[simp] theorem Result.complete_done (s : State) (c : Word) : (Result.done s).complete c = s.completeDone := rfl

@[simp] theorem Result.complete_failed (e : CmdError) (s : State) (c : Word) :
    (Result.failed e s).complete c = s.completeError c e := rfl

@[simp] theorem Result.andThen_done (s : State) (f : State → Result) : (Result.done s).andThen f = f s := rfl

@[simp] theorem Result.andThen_failed (e : CmdError) (s : State) (f : State → Result) :
    (Result.failed e s).andThen f = .failed e s := rfl

theorem finish_eq_next {c : Word} {r : Result} {t : State} : finish c r = .next t ↔ t = r.complete c := by
  simp [finish, eq_comm]

theorem State.completeDone_eq (s : State) : s.completeDone = s.afterSuccess s.status := rfl

theorem State.completeError_eq (s : State) (c : Word) (e : CmdError) :
    s.completeError c e = s.afterFailure s.status c e := rfl

theorem CmdError.code_ne_zero (e : CmdError) : e.code ≠ 0#4 := by cases e <;> decide

theorem CmdError.code_le (e : CmdError) : e.code.toNat ≤ 9 := by cases e <;> decide

/-! ### The frame-length check -/

theorem checkFrameLen_of_le {body : State → Result} {s : State} (h : s.frameLen.toNat ≤ s.params.frameBytes) :
    checkFrameLen body s = body s := by
  rw [checkFrameLen, if_neg (by omega)]

theorem checkFrameLen_of_gt {body : State → Result} {s : State} (h : s.params.frameBytes < s.frameLen.toNat) :
    checkFrameLen body s = .failed .badOperand s := by
  rw [checkFrameLen, if_pos h]

theorem checkFrameLen_cases (body : State → Result) (s : State) :
    (s.params.frameBytes < s.frameLen.toNat ∧ checkFrameLen body s = .failed .badOperand s) ∨
    (s.frameLen.toNat ≤ s.params.frameBytes ∧ checkFrameLen body s = body s) := by
  by_cases h : s.params.frameBytes < s.frameLen.toNat
  · exact .inl ⟨h, checkFrameLen_of_gt h⟩
  · exact .inr ⟨by omega, checkFrameLen_of_le (by omega)⟩

/-! ### The bodies -/

theorem xNibBody_cases (s : State) :
    (∃ e, (e = .missingValue ∨ e = .badOperand ∨ e = .outOfRange) ∧ xNibBody s = .failed e s) ∨
    (1 ≤ s.argLen.toNat ∧ s.argLen.toNat ≤ 16 ∧ s.argStart.toNat + s.argLen.toNat ≤ 2 * s.frameLen.toNat ∧
      xNibBody s = .done (s.setXRes (s.nbe s.argStart.toNat s.argLen.toNat))) := by
  unfold xNibBody
  split
  · exact .inl ⟨_, by simp, rfl⟩
  · split
    · exact .inl ⟨_, by simp, rfl⟩
    · split
      · exact .inl ⟨_, by simp, rfl⟩
      · exact .inr ⟨by omega, by omega, by omega, rfl⟩

theorem xBitBody_cases (s : State) :
    (∃ e, (e = .missingValue ∨ e = .badOperand ∨ e = .outOfRange) ∧ xBitBody s = .failed e s) ∨
    (1 ≤ s.argLen.toNat ∧ s.argLen.toNat ≤ 64 ∧ s.argStart.toNat + s.argLen.toNat ≤ 8 * s.frameLen.toNat ∧
      xBitBody s = .done (s.setXRes (s.bbe s.argStart.toNat s.argLen.toNat))) := by
  unfold xBitBody
  split
  · exact .inl ⟨_, by simp, rfl⟩
  · split
    · exact .inl ⟨_, by simp, rfl⟩
    · split
      · exact .inl ⟨_, by simp, rfl⟩
      · exact .inr ⟨by omega, by omega, by omega, rfl⟩

theorem decEthBody_cases (s : State) :
    (∃ e, (e = .malformedInput ∨ e = .notIpPacket) ∧ decEthBody s = .failed e (s.invalidate .decEth)) ∨
    (14 ≤ s.frameLen.toNat ∧ s.be 12 2 = 0x0800 ∧
      decEthBody s = .done { s with eth := s.ethFields, status := { s.status.withoutFrame with ethV := true } }) := by
  unfold decEthBody
  simp only
  split
  · exact .inl ⟨_, by simp, rfl⟩
  · split
    · exact .inl ⟨_, by simp, rfl⟩
    · rename_i h₁ h₂
      exact .inr ⟨Nat.le_of_not_lt h₁, not_not.mp h₂, rfl⟩

theorem decIpBody_cases (s : State) :
    (∃ e, (e = .notDecoded ∧ s.status.ethV = false ∨ e = .malformedInput ∨ e = .notTcpPacket) ∧
      decIpBody s = .failed e (s.invalidate .decIp)) ∨
    (s.status.ethV = true ∧ s.ipAccepts s.eth.payOff.toNat ∧
      decIpBody s = .done { s with
        ip := s.ipFields s.eth.payOff.toNat, status := { s.status.withoutIp with ipV := true } }) := by
  unfold decIpBody
  simp only
  split
  · rename_i h
    exact .inl ⟨_, .inl ⟨rfl, h⟩, rfl⟩
  · split
    · exact .inl ⟨_, by simp, rfl⟩
    · split
      · exact .inl ⟨_, by simp, rfl⟩
      · split
        · exact .inl ⟨_, by simp, rfl⟩
        · split
          · exact .inl ⟨_, by simp, rfl⟩
          · rename_i h₁ h₂ h₃ h₄ h₅
            refine .inr ⟨by simpa using h₁, ⟨?_, ?_, ?_, ?_⟩, rfl⟩
            · exact Nat.le_of_not_lt h₂
            · exact not_not.mp h₃
            · exact Nat.le_of_not_lt h₄
            · exact Nat.le_of_not_lt h₅

theorem decTcpBody_cases (s : State) :
    (∃ e, (e = .notDecoded ∧ s.status.ipV = false ∨ e = .malformedInput ∨ e = .outOfRange) ∧
      decTcpBody s = .failed e (s.invalidate .decTcp)) ∨
    (s.status.ipV = true ∧ s.tcpAccepts s.ip.payOff.toNat s.ip.totlen.toNat s.ip.hlen.toNat ∧
      decTcpBody s = .done { s with
        tcp := s.tcpFields s.ip.payOff.toNat s.segmentLen, status := { s.status.withoutTcp with tcpV := true } }) := by
  unfold decTcpBody
  simp only
  split
  · rename_i h
    exact .inl ⟨_, .inl ⟨rfl, h⟩, rfl⟩
  · split
    · exact .inl ⟨_, by simp, rfl⟩
    · split
      · exact .inl ⟨_, by simp, rfl⟩
      · split
        · exact .inl ⟨_, by simp, rfl⟩
        · split
          · exact .inl ⟨_, by simp, rfl⟩
          · rename_i h₁ h₂ h₃ h₄ h₅
            rw [not_or] at h₅
            refine .inr ⟨by simpa using h₁, ⟨?_, ?_, ?_, ?_, ?_⟩, rfl⟩
            · exact Nat.le_of_not_lt h₂
            · exact Nat.le_of_not_lt h₃
            · exact Nat.le_of_not_lt h₄
            · exact Nat.le_of_not_lt h₅.1
            · exact Nat.le_of_not_lt h₅.2

theorem csAddrBody_cases (skip : Bool) (s : State) :
    (∃ e, (e = .outOfRange ∨ e = .oddLength ∨ e = .badOperand) ∧ csAddrBody skip s = .failed e s) ∨
    (s.argStart.toNat + s.argLen.toNat ≤ 2 * s.frameLen.toNat ∧ s.argLen.toNat % 2 = 0 ∧
      (skip = true → ¬ badSkip s.argStart.toNat s.argLen.toNat s.argSkip.toNat) ∧
      csAddrBody skip s = .done { s with
        acc := accSum s.acc (s.rangeWords skip s.argStart.toNat s.argLen.toNat s.argSkip.toNat) }) := by
  unfold csAddrBody
  split
  · exact .inl ⟨_, by simp, rfl⟩
  · split
    · exact .inl ⟨_, by simp, rfl⟩
    · split
      · exact .inl ⟨_, by simp, rfl⟩
      · rename_i h₁ h₂ h₃
        exact .inr ⟨by omega, by omega, fun h h' => h₃ ⟨h, h'⟩, rfl⟩

theorem phBuildBody_cases (s : State) :
    (s.status.tcpV = false ∧ phBuildBody s = .failed .notDecoded (s.invalidate .phBuild)) ∨
    (s.status.tcpV = true ∧
      phBuildBody s = .done { s with ph := s.phFields, status := { s.status.withoutPh with phV := true } }) := by
  unfold phBuildBody
  simp only
  split
  · rename_i h
    exact .inl ⟨h, rfl⟩
  · rename_i h
    exact .inr ⟨by simpa using h, rfl⟩

theorem chkIpBody_cases (s : State) :
    (s.status.ipV = false ∧ chkIpBody s = .failed .notDecoded (s.invalidate .chkIp)) ∨
    (s.status.ipV = true ∧
      chkIpBody s = .done { s with
        acc := s.ipSum, csumRes := checksumOf s.ipSum, ipCsumCalc := checksumOf s.ipSum
        status := { s.status with ipCkV := true, ipOk := checksumOf s.ipSum == s.ip.csum, frameV := false } }) := by
  unfold chkIpBody
  simp only
  split
  · rename_i h
    exact .inl ⟨h, rfl⟩
  · rename_i h
    exact .inr ⟨by simpa using h, rfl⟩

theorem chkTcpBody_cases (s : State) :
    (s.status.phV = false ∧ chkTcpBody s = .failed .notDecoded (s.invalidate .chkTcp)) ∨
    (s.status.phV = true ∧
      chkTcpBody s = .done { s with
        acc := s.tcpSum, csumRes := checksumOf s.tcpSum, tcpCsumCalc := checksumOf s.tcpSum
        status := { s.status with tcpCkV := true, tcpOk := checksumOf s.tcpSum == s.tcp.csum, frameV := false } }) := by
  unfold chkTcpBody
  simp only
  split
  · rename_i h
    exact .inl ⟨h, rfl⟩
  · rename_i h
    exact .inr ⟨by simpa using h, rfl⟩

/-! ### A stage whose checks pass -/

theorem decEthBody_of_accepts {s : State} (h : s.ethAccepts) :
    decEthBody s = .done { s with eth := s.ethFields, status := { s.status.withoutFrame with ethV := true } } := by
  rw [decEthBody]
  simp only
  rw [if_neg (by exact Nat.not_lt.mpr h.2.1), if_neg (by exact not_not.mpr h.2.2)]
  rfl

theorem decIpBody_of_accepts {s : State} (hv : s.status.ethV = true) (h : s.ipAccepts s.eth.payOff.toNat) :
    decIpBody s = .done { s with
      ip := s.ipFields s.eth.payOff.toNat, status := { s.status.withoutIp with ipV := true } } := by
  obtain ⟨a, b, c, d⟩ := h
  rw [decIpBody]
  simp only
  rw [if_neg (by simp [hv]), if_neg (by exact Nat.not_lt.mpr a), if_neg (by exact not_not.mpr b),
    if_neg (by exact Nat.not_lt.mpr c), if_neg (by exact Nat.not_lt.mpr d)]
  rfl

theorem decTcpBody_of_accepts {s : State} (hv : s.status.ipV = true)
    (h : s.tcpAccepts s.ip.payOff.toNat s.ip.totlen.toNat s.ip.hlen.toNat) :
    decTcpBody s = .done { s with
      tcp := s.tcpFields s.ip.payOff.toNat s.segmentLen, status := { s.status.withoutTcp with tcpV := true } } := by
  obtain ⟨a, b, c, d, e⟩ := h
  rw [decTcpBody]
  simp only
  rw [if_neg (by simp [hv]), if_neg (by exact Nat.not_lt.mpr a), if_neg (by exact Nat.not_lt.mpr b),
    if_neg (by exact Nat.not_lt.mpr c), if_neg (by rw [not_or]; exact ⟨Nat.not_lt.mpr d, Nat.not_lt.mpr e⟩)]
  rfl

/-- A stage of DECODE either fails and leaves the state with its invalidation set cleared and nothing else changed, or
ends with its commit. -/
theorem Stage.body_cases (st : Stage) (s : State) :
    (∃ e, st.body s = .failed e (s.invalidate st)) ∨ (∃ t, st.body s = .done t) := by
  cases st
  · obtain ⟨e, -, h⟩ | ⟨-, -, h⟩ := decEthBody_cases s
    · exact .inl ⟨e, h⟩
    · exact .inr ⟨_, h⟩
  · obtain ⟨e, -, h⟩ | ⟨-, -, h⟩ := decIpBody_cases s
    · exact .inl ⟨e, h⟩
    · exact .inr ⟨_, h⟩
  · obtain ⟨e, -, h⟩ | ⟨-, -, h⟩ := decTcpBody_cases s
    · exact .inl ⟨e, h⟩
    · exact .inr ⟨_, h⟩
  · obtain ⟨-, h⟩ | ⟨-, h⟩ := phBuildBody_cases s
    · exact .inl ⟨_, h⟩
    · exact .inr ⟨_, h⟩
  · obtain ⟨-, h⟩ | ⟨-, h⟩ := chkIpBody_cases s
    · exact .inl ⟨_, h⟩
    · exact .inr ⟨_, h⟩
  · obtain ⟨-, h⟩ | ⟨-, h⟩ := chkTcpBody_cases s
    · exact .inl ⟨_, h⟩
    · exact .inr ⟨_, h⟩

@[simp] theorem runStages_nil (s : State) : runStages [] s = .done s := rfl

theorem runStages_cons (st : Stage) (rest : List Stage) (s : State) :
    runStages (st :: rest) s = (st.body s).andThen fun t => runStages rest { t with stage := some st } := rfl

/-- Carry a property through the stages: if each stage's body keeps `P`, whether it succeeds or fails, and recording
the stage keeps it, then the run ends with it. -/
theorem runStages_induction {P : State → Prop}
    (hDone : ∀ (st : Stage) (s t : State), P s → st.body s = .done t → P { t with stage := some st })
    (hFail : ∀ (st : Stage) (s : State) (e : CmdError) (t : State), P s → st.body s = .failed e t → P t)
    (stages : List Stage) {s : State} (h : P s) :
    (∃ t, runStages stages s = .done t ∧ P t) ∨ (∃ e t, runStages stages s = .failed e t ∧ P t) := by
  induction stages generalizing s with
  | nil => exact .inl ⟨s, rfl, h⟩
  | cons st rest ih =>
    rw [runStages_cons]
    cases hb : st.body s with
    | done t => exact ih (hDone st s t h hb)
    | failed e t => exact .inr ⟨e, t, rfl, hFail st s e t h hb⟩

end Sys2Proof.Machine
end

