-- ==== Sys2Proof/Laws/Decode.lean ====
section
/-! SUPPORT. Taking a command word apart and putting it together (spec/30_encoding.md R121): each field is read where
it is laid, and no bit is lost. And the command syntax (R131): its letters and its operands. -/

namespace Sys2Proof

theorem wordOf_toNat (f : Fields) :
    (wordOf f).toNat = f.op.toNat + 2 ^ 8 * f.skip.toNat + 2 ^ 9 * f.rsv.toNat + 2 ^ 16 * f.imm.toNat := by
  have h₁ := f.op.isLt
  have h₂ := f.rsv.isLt
  have h₃ : f.skip.toNat < 2 := by cases f.skip <;> decide
  simp only [wordOf, BitVec.toNat_append, BitVec.toNat_ofBool]
  have a := Nat.shiftLeft_add_eq_or_of_lt (i := 8) (b := f.op.toNat) h₁ f.skip.toNat
  have b := Nat.shiftLeft_add_eq_or_of_lt (i := 1 + 8) (b := f.skip.toNat <<< 8 + f.op.toNat)
    (by rw [Nat.shiftLeft_eq]; omega) f.rsv.toNat
  have c := Nat.shiftLeft_add_eq_or_of_lt (i := 7 + (1 + 8))
    (b := f.rsv.toNat <<< (1 + 8) + (f.skip.toNat <<< 8 + f.op.toNat))
    (by simp only [Nat.shiftLeft_eq]; omega) f.imm.toNat
  rw [← a, ← b, ← c]
  simp only [Nat.shiftLeft_eq]
  omega

theorem fieldsOf_op (c : Word) : (fieldsOf c).op.toNat = c.toNat % 2 ^ 8 := by
  simp [fieldsOf, BitVec.extractLsb'_toNat]

theorem fieldsOf_skip (c : Word) : (fieldsOf c).skip = decide (c.toNat / 2 ^ 8 % 2 = 1) := by
  simp [fieldsOf, BitVec.getLsbD, Nat.testBit_eq_decide_div_mod_eq]

theorem fieldsOf_rsv (c : Word) : (fieldsOf c).rsv.toNat = c.toNat / 2 ^ 9 % 2 ^ 7 := by
  simp [fieldsOf, BitVec.extractLsb'_toNat, Nat.shiftRight_eq_div_pow]

theorem fieldsOf_imm (c : Word) : (fieldsOf c).imm.toNat = c.toNat / 2 ^ 16 := by
  have := c.isLt
  simp [fieldsOf, BitVec.extractLsb'_toNat, Nat.shiftRight_eq_div_pow]
  omega

theorem fieldsOf_wordOf (f : Fields) : fieldsOf (wordOf f) = f := by
  have h := wordOf_toNat f
  have h₁ := f.op.isLt
  have h₂ := f.rsv.isLt
  have h₃ : f.skip.toNat < 2 := by cases f.skip <;> decide
  have h₄ := f.imm.isLt
  have e₁ : (fieldsOf (wordOf f)).op = f.op := BitVec.eq_of_toNat_eq (by rw [fieldsOf_op, h]; omega)
  have e₂ : (fieldsOf (wordOf f)).rsv = f.rsv := BitVec.eq_of_toNat_eq (by rw [fieldsOf_rsv, h]; omega)
  have e₃ : (fieldsOf (wordOf f)).imm = f.imm := BitVec.eq_of_toNat_eq (by rw [fieldsOf_imm, h]; omega)
  have e₄ : (fieldsOf (wordOf f)).skip = f.skip := by
    rw [fieldsOf_skip, h]
    cases hs : f.skip
    · rw [hs] at h₃; simp only [Bool.toNat_false]; rw [decide_eq_false]; omega
    · simp only [Bool.toNat_true]; rw [decide_eq_true]; omega
  calc fieldsOf (wordOf f)
      = ⟨(fieldsOf (wordOf f)).op, (fieldsOf (wordOf f)).skip, (fieldsOf (wordOf f)).rsv,
          (fieldsOf (wordOf f)).imm⟩ := rfl
    _ = f := by rw [e₁, e₂, e₃, e₄]

theorem wordOf_fieldsOf (c : Word) : wordOf (fieldsOf c) = c := by
  have hc := c.isLt
  apply BitVec.eq_of_toNat_eq
  rw [wordOf_toNat, fieldsOf_op, fieldsOf_rsv, fieldsOf_imm, fieldsOf_skip]
  by_cases h : c.toNat / 2 ^ 8 % 2 = 1
  · rw [decide_eq_true h, Bool.toNat_true]; omega
  · rw [decide_eq_false h, Bool.toNat_false]; omega

theorem fieldsOf_encode (i : Instr) : fieldsOf (encode i) = ⟨opcodeOf i, skipOf i, 0#7, immOf i⟩ :=
  fieldsOf_wordOf _

/-- The opcode map gives a command where it has the OP value. -/
theorem commandOf_some {op : BitVec 8} {skip : Bool} {imm : Half} {i : Instr} (h : commandOf op skip imm = some i) :
    (op, i) ∈ opcodeMap skip imm := by
  unfold commandOf at h
  obtain ⟨row, hf, rfl⟩ := Option.map_eq_some_iff.mp h
  have e : row.1 = op := by simpa using List.find?_some hf
  subst e
  exact List.mem_of_find?_eq_some hf

/-- The opcode map gives no command where no row has the OP value. -/
theorem commandOf_none {op : BitVec 8} {skip : Bool} {imm : Half} :
    commandOf op skip imm = none ↔ op ∉ (opcodeMap skip imm).map Prod.fst := by
  unfold commandOf
  rw [Option.map_eq_none_iff, List.find?_eq_none]
  simp only [List.mem_map, not_exists, not_and, beq_iff_eq]

/-! ### The command syntax -/

theorem Machine.capital_eq_toUpper (c : Char) : Machine.capital c = c.toUpper := by
  by_cases h : 97 ≤ c.toNat ∧ c.toNat ≤ 122
  · obtain ⟨h₁, h₂⟩ := h
    rw [show c = Char.ofNat c.toNat from c.ofNat_toNat.symm]
    generalize c.toNat = n at h₁ h₂ ⊢
    interval_cases n <;> rfl
  · rw [Machine.capital, if_neg h, Char.toUpper, dif_neg]
    exact h

/-- The candidates of an operand are the commands whose syntax has it. -/
theorem Machine.mem_candidates {operand : Option Nat} {i : Instr} :
    i ∈ Machine.candidates operand ↔ operand = Machine.syntaxOperand i := by
  cases operand with
  | none =>
    cases i with
    | csAddr skip => cases skip <;> simp [Machine.candidates, Machine.syntaxOperand]
    | _ => simp [Machine.candidates, Machine.syntaxOperand]
  | some n =>
    simp only [Machine.candidates]
    cases i with
    | csAddw imm =>
      have := imm.isLt
      simp only [Machine.syntaxOperand, Option.some.injEq]
      split
      · simp only [List.mem_singleton, Instr.csAddw.injEq, ← BitVec.toNat_inj, BitVec.toNat_ofNat]
        omega
      · simp only [List.not_mem_nil, false_iff]
        omega
    | _ => split <;> simp [Machine.syntaxOperand]

end Sys2Proof
end

