-- ==== Sys2Proof/Laws/PerInstr.lean ====
section
/-! SUPPORT. Statements made per command. Family EncodedFields: the word of every command has the fields of a
well-formed command (spec/30_encoding.md R121, R122), with OP the row's opcode and RSV zero. -/

namespace Sys2Proof.Laws.EncodedFields

def Statement (i : Instr) : Prop :=
  (fieldsOf (encode i)).wf = true ∧ (fieldsOf (encode i)).op = opcodeOf i ∧ (fieldsOf (encode i)).rsv = 0#7

theorem nop : Statement .nop := by unfold Statement; decide
theorem xNib : Statement .xNib := by unfold Statement; decide
theorem xBit : Statement .xBit := by unfold Statement; decide
theorem decEth : Statement .decEth := by unfold Statement; decide
theorem decIp : Statement .decIp := by unfold Statement; decide
theorem decTcp : Statement .decTcp := by unfold Statement; decide
theorem csClr : Statement .csClr := by unfold Statement; decide

theorem csAddw (imm : Half) : Statement (.csAddw imm) := by
  simp only [Statement, fieldsOf_encode]
  simp [Fields.wf, Fields.opcodes, opcodeOf, skipOf]

theorem csAddr (skip : Bool) : Statement (.csAddr skip) := by unfold Statement; cases skip <;> decide
theorem csAddph : Statement .csAddph := by unfold Statement; decide
theorem csFin : Statement .csFin := by unfold Statement; decide
theorem phBuild : Statement .phBuild := by unfold Statement; decide
theorem chkIp : Statement .chkIp := by unfold Statement; decide
theorem chkTcp : Statement .chkTcp := by unfold Statement; decide
theorem decodeFrame : Statement .decodeFrame := by unfold Statement; decide

end Sys2Proof.Laws.EncodedFields
end

