-- ==== Sys2Proof/Laws/Step.lean ====
section
/-! SUPPORT. What one step can be: a completion, an input, or a pass; and what a completion is. -/

namespace Sys2Proof.Machine

/-- Every command completes: its meaning answers a next state in every state. -/
theorem exec_next (i : Instr) (s : State) : ∃ r : Result, exec i s = .next (r.complete (encode i)) := by
  cases i <;> exact ⟨_, rfl⟩

/-- A completion is the recording of IllegalCommand for a reserved word, or the command's meaning. -/
theorem completeCommand_cases (c : Word) (s : State) :
    ((∃ why, decode c = .reserved why) ∧ completeCommand c s = .next (s.completeError c .illegalCommand)) ∨
    (∃ i, decode c = .command i ∧ completeCommand c s = exec i s) := by
  unfold completeCommand
  cases decode c with
  | reserved why => exact .inl ⟨⟨why, rfl⟩, rfl⟩
  | command i => exact .inr ⟨i, rfl, rfl⟩

theorem nil_or_cons {α : Type} (l : List α) : l = [] ∨ ∃ a rest, l = a :: rest := by
  cases l with
  | nil => exact .inl rfl
  | cons a rest => exact .inr ⟨a, rest, rfl⟩

/-- With no turn given, taking the turn changes nothing. -/
theorem State.take_no_turn {s : State} (h : s.turns = []) : ({ s with turns := s.turns.tail } : State) = s := by
  have : s.turns.tail = s.turns := by simp [h]
  rw [this]

theorem step_of_engineDoes {s u : State} {c : Word} (h : s.engineDoes c u) : step s = completeCommand c u := by
  obtain ⟨ht, hp, rfl⟩ := h
  obtain hts | ⟨a, rest, hts⟩ := nil_or_cons s.turns
  · rw [State.take_no_turn hts]
    simp [step, advance, hts, hp, engineMove]
  · have ha : a = .engine := by simpa [hts] using ht
    subst ha
    simp [step, advance, hts, engineMove, hp]

theorem step_of_hostDoes {s u : State} {a : Input} (h : s.hostDoes a u) : step s = u.perform a := by
  obtain ⟨ht, rest, hi, rfl⟩ := h
  obtain hts | ⟨b, more, hts⟩ := nil_or_cons s.turns
  · have hp : s.pending = none := by simpa [hts] using ht
    simp [step, advance, hts, hp, hostMove, hi]
  · have hb : b = .host := by simpa [hts] using ht
    subst hb
    simp [step, advance, hts, hostMove, hi]

/-- Every step is one of three: the engine completes the pending command; the host performs its next input; or the
agent whose turn it is has nothing to do, and only the turn is taken. -/
theorem step_cases (s : State) :
    (∃ c u, s.engineDoes c u ∧ step s = completeCommand c u) ∨
    (∃ a u, s.hostDoes a u ∧ step s = u.perform a) ∨
    step s = .next { s with turns := s.turns.tail } := by
  have engine : ∀ c, (s.turns.head? = some .engine ∨ s.turns = []) → s.pending = some c →
      ∃ c u, s.engineDoes c u ∧ step s = completeCommand c u :=
    fun c ht hp => ⟨c, _, ⟨ht, hp, rfl⟩, step_of_engineDoes ⟨ht, hp, rfl⟩⟩
  have host : ∀ a rest, (s.turns.head? = some .host ∨ (s.turns = [] ∧ s.pending = none)) → s.inputs = a :: rest →
      ∃ a u, s.hostDoes a u ∧ step s = u.perform a :=
    fun a rest ht hi => ⟨a, _, ⟨ht, rest, hi, rfl⟩, step_of_hostDoes ⟨ht, rest, hi, rfl⟩⟩
  obtain hts | ⟨b, more, hts⟩ := nil_or_cons s.turns
  · obtain hp | ⟨c, hp⟩ := Option.eq_none_or_eq_some s.pending
    · obtain hi | ⟨a, rest, hi⟩ := nil_or_cons s.inputs
      · refine .inr (.inr ?_)
        rw [State.take_no_turn hts]
        simp [step, advance, hts, hp, hostMove, hi]
      · exact .inr (.inl (host a rest (.inr ⟨hts, hp⟩) hi))
    · exact .inl (engine c (.inr hts) hp)
  · cases b with
    | engine =>
      obtain hp | ⟨c, hp⟩ := Option.eq_none_or_eq_some s.pending
      · refine .inr (.inr ?_)
        simp [step, advance, hts, engineMove, hp]
      · exact .inl (engine c (.inl (by simp [hts])) hp)
    | host =>
      obtain hi | ⟨a, rest, hi⟩ := nil_or_cons s.inputs
      · refine .inr (.inr ?_)
        simp [step, advance, hts, hostMove, hi]
      · exact .inr (.inl (host a rest (.inl (by simp [hts])) hi))

end Sys2Proof.Machine
end

