-- ==== Sys2Proof/Tests/Slice0.lean ====
section
/-! SUPPORT. The model's own tests. Every expected value is a vector of spec/95_test_vectors.md (V-..., P..., E...) or
is read from an encoding table; the witnesses at the end show that the hypotheses of each obligation are met. -/

namespace Sys2Proof.Tests

open Sys2Proof Sys2Proof.Machine

set_option Elab.async false

/-! ### Helpers -/

/-- Octets given as numbers. -/
def octets (l : List Nat) : List Octet :=
  l.map (BitVec.ofNat 8)

/-- Frame A of 95_test_vectors.md section 0. -/
def frameA : List Octet :=
  octets [0x00, 0x1a, 0x2b, 0x3c, 0x4d, 0x5e, 0x00, 0x0c, 0x29, 0xaa, 0xbb, 0xcc, 0x08, 0x00, 0x45, 0x00] ++
  octets [0x00, 0x3c, 0x1c, 0x46, 0x40, 0x00, 0x40, 0x06, 0xb1, 0xe6, 0xac, 0x10, 0x0a, 0x63, 0xac, 0x10] ++
  octets [0x0a, 0x0c, 0x04, 0xd2, 0x00, 0x50, 0x00, 0x00, 0x00, 0x01, 0x00, 0x00, 0x00, 0x00, 0x50, 0x02] ++
  octets [0x72, 0x10, 0xcc, 0x01, 0x00, 0x00, 0x30, 0x31, 0x32, 0x33, 0x34, 0x35, 0x36, 0x37, 0x38, 0x39] ++
  octets [0x61, 0x62, 0x63, 0x64, 0x65, 0x66, 0x67, 0x68, 0x69, 0x6a]

/-- Frame B of 95_test_vectors.md section 0. -/
def frameB : List Octet :=
  octets [0x00, 0x1a, 0x2b, 0x3c, 0x4d, 0x5e, 0x00, 0x0c, 0x29, 0xaa, 0xbb, 0xcc, 0x08, 0x00, 0x45, 0x00] ++
  octets [0x00, 0x29, 0x00, 0x01, 0x00, 0x00, 0x40, 0x06, 0xf9, 0x7a, 0xc0, 0xa8, 0x00, 0x01, 0xc0, 0xa8] ++
  octets [0x00, 0x02, 0x30, 0x39, 0x00, 0x17, 0x11, 0x22, 0x33, 0x44, 0x55, 0x66, 0x77, 0x88, 0x50, 0x18] ++
  octets [0x01, 0x00, 0xaa, 0xd2, 0x00, 0x00, 0x41, 0x00, 0x00, 0x00, 0x00, 0x00]

/-- Frame C of 95_test_vectors.md section 0. -/
def frameC : List Octet :=
  octets [0xff, 0xff, 0xff, 0xff, 0xff, 0xff, 0x00, 0x0c, 0x29, 0xaa, 0xbb, 0xcc, 0x08, 0x06, 0x00, 0x01] ++
  octets [0x08, 0x00, 0x06, 0x04, 0x00, 0x01, 0x00, 0x0c, 0x29, 0xaa, 0xbb, 0xcc, 0xc0, 0xa8, 0x00, 0x01] ++
  octets [0x00, 0x00, 0x00, 0x00, 0x00, 0x00, 0xc0, 0xa8, 0x00, 0x02]

/-- Octets listed from index `i`. -/
def cells (i : Nat) (vs : List Octet) : Memory :=
  match vs with
  | [] => []
  | v :: rest => (i, v) :: cells (i + 1) rest

/-- The block with a frame loaded and nothing decoded. -/
def loaded (frame : List Octet) : State :=
  { State.reset with buffer := cells 0 frame, frameLen := BitVec.ofNat 16 frame.length }

/-- `loaded` with ARG_START, ARG_LEN and ARG_SKIP. -/
def withArgs (frame : List Octet) (start len skip : Nat) : State :=
  { loaded frame with
    argStart := BitVec.ofNat 32 start, argLen := BitVec.ofNat 32 len, argSkip := BitVec.ofNat 32 skip }

/-- The next state, or the reset state where there is none. -/
def stateOf (o : Host.Outcome State Fault Refusal) : State :=
  match o with
  | .next t => t
  | .fault _ => State.reset
  | .refused _ => State.reset

/-- The outcome is a next state with property `p`. -/
def goesTo (o : Host.Outcome State Fault Refusal) (p : State → Bool) : Bool :=
  match o with
  | .next t => p t
  | .fault _ => false
  | .refused _ => false

/-- A frame decoded up to the pseudo-header. -/
def decoded (frame : List Octet) : State :=
  stateOf (runStopped [.decEth, .decIp, .decTcp, .phBuild] (loaded frame))

/-- The word STATUS reads. -/
def statusOf (s : State) : Word :=
  s.status.toWord

/-! ### WellFormed: one ill-formed term for each check -/

theorem test_params_default_wellFormed : Config.Params.default.wf = true := by decide
theorem test_params_tooSmall : Config.Params.wf ⟨53⟩ = false ∧ Config.Params.wf ⟨54⟩ = true := by decide
theorem test_params_tooLarge : Config.Params.wf ⟨61441⟩ = false ∧ Config.Params.wf ⟨61440⟩ = true := by decide
theorem test_fields_wellFormed : Fields.wf ⟨0x21#8, false, 0#7, 3#16⟩ = true := by decide
theorem test_fields_unknownOp : Fields.wf ⟨0x03#8, false, 0#7, 0#16⟩ = false := by decide
theorem test_fields_reservedBits : Fields.wf ⟨0x20#8, false, 1#7, 0#16⟩ = false := by decide
theorem test_fields_skipOutsideAddr : Fields.wf ⟨0x20#8, true, 0#7, 0#16⟩ = false := by decide
theorem test_fields_immOutsideAddw : Fields.wf ⟨0x20#8, false, 0#7, 1#16⟩ = false := by decide

/-! ### Decode: every row of the opcode table, its word from the table's own "match" and "fields" -/

theorem test_decode_nop : decodeTableWord 32 0x00000000 = some .nop := by decide
theorem test_decode_xNib : decodeTableWord 32 0x00000001 = some .xNib := by decide
theorem test_decode_xBit : decodeTableWord 32 0x00000002 = some .xBit := by decide
theorem test_decode_decEth : decodeTableWord 32 0x00000010 = some .decEth := by decide
theorem test_decode_decIp : decodeTableWord 32 0x00000011 = some .decIp := by decide
theorem test_decode_decTcp : decodeTableWord 32 0x00000012 = some .decTcp := by decide
theorem test_decode_csClr : decodeTableWord 32 0x00000020 = some .csClr := by decide
theorem test_decode_csAddw : decodeTableWord 32 0x80010021 = some (.csAddw 0x8001#16) := by decide
theorem test_decode_csAddr : decodeTableWord 32 0x00000022 = some (.csAddr false) := by decide
theorem test_decode_csAddr_s : decodeTableWord 32 0x00000122 = some (.csAddr true) := by decide
theorem test_decode_csAddph : decodeTableWord 32 0x00000023 = some .csAddph := by decide
theorem test_decode_csFin : decodeTableWord 32 0x00000024 = some .csFin := by decide
theorem test_decode_phBuild : decodeTableWord 32 0x00000028 = some .phBuild := by decide
theorem test_decode_chkIp : decodeTableWord 32 0x00000029 = some .chkIp := by decide
theorem test_decode_chkTcp : decodeTableWord 32 0x0000002A = some .chkTcp := by decide
theorem test_decode_decodeFrame : decodeTableWord 32 0x00000030 = some .decodeFrame := by decide

/-- V-E2, V-E3. -/
theorem test_reserved_op : decode 0x00000003#32 = .reserved .unknownOp ∧ decode 0x000000FF#32 = .reserved .unknownOp := by
  decide
/-- V-E4, V-E7. -/
theorem test_reserved_rsv :
    decode 0x00000220#32 = .reserved .rsvNonZero ∧ decode 0x00000222#32 = .reserved .rsvNonZero := by decide
/-- V-E5, V-E9. -/
theorem test_reserved_skip :
    decode 0x00000120#32 = .reserved .skipOutsideAddr ∧ decode 0x00010121#32 = .reserved .skipOutsideAddr := by decide
/-- V-E6, V-E8. -/
theorem test_reserved_imm :
    decode 0x00010020#32 = .reserved .immOutsideAddw ∧ decode 0x00010022#32 = .reserved .immOutsideAddw := by decide

/-! ### Checksum arithmetic -/

/-- V-F3 to V-F7. -/
theorem test_fold : fold 0x10000 = 1 ∧ fold 0x1FFFE = 0xFFFF ∧ foldLoop 3 0x12345678 = 0x68AC ∧
    foldLoop 3 0xFFFFFFFF = 0xFFFF ∧ foldLoop 3 0x100000000 = 1 := by decide +kernel
/-- V-F8 to V-F11. -/
theorem test_accAdd : accAdd 0x1234 0xEDCB = 0xFFFF ∧ accAdd 0x0001 0xFFFF = 0x0001 ∧ accAdd 0 0 = 0 ∧
    accSum 0 [0xFFFF, 0xFFFF, 0xFFFF] = 0xFFFF := by decide +kernel

/-! ### The commands -/

/-- V-E1. -/
theorem test_nop : goesTo (exec .nop (loaded frameC)) (fun t => statusOf t == 0x2#32) = true := by decide +kernel

/-- V-X4. -/
theorem test_xNib : goesTo (exec .xNib (withArgs frameA 0 16 0)) (fun t =>
    t.xResHi == 0x001A2B3C#32 && t.xResLo == 0x4D5E000C#32) = true := by decide +kernel
/-- V-X6. -/
theorem test_xNib_missingValue : goesTo (exec .xNib (withArgs frameA 5 0 0)) (fun t => statusOf t == 0x16#32) = true := by
  decide +kernel

/-- V-X16. -/
theorem test_xBit : goesTo (exec .xBit (withArgs frameA 590 2 0)) (fun t => t.xRes == 2#64) = true := by decide +kernel
/-- V-X18. -/
theorem test_xBit_outOfRange : goesTo (exec .xBit (withArgs frameA 592 1 0)) (fun t => statusOf t == 0x26#32) = true := by
  decide +kernel

/-- V-D1. -/
theorem test_decEth : goesTo (exec .decEth (loaded frameA)) (fun t => statusOf t == 0x102#32 && decide (t.eth =
    { dstHi := 0x001A, dstLo := 0x2B3C4D5E, srcHi := 0x000C, srcLo := 0x29AABBCC, etherType := 0x0800, payOff := 14,
      payLen := 60 })) = true := by decide +kernel
/-- V-D20 (frame C, E3). -/
theorem test_decEth_notIpPacket : goesTo (exec .decEth (loaded frameC)) (fun t =>
    statusOf t == 0x46#32 && t.errCmd == 0x10#32) = true := by decide +kernel

/-- V-D2. -/
theorem test_decIp : goesTo (exec .decIp (stateOf (exec .decEth (loaded frameA)))) (fun t => decide (t.ip =
    { ver := 4, ihl := 5, hlen := 20, tos := 0, totlen := 0x003C, ident := 0x1C46, flags := 2, fragOff := 0,
      ttl := 0x40, proto := 6, csum := 0xB1E6, src := 0xAC100A63, dst := 0xAC100A0C, payOff := 34,
      payLen := 40 })) = true := by decide +kernel
/-- P4: DEC.IP with no Ethernet header decoded. -/
theorem test_decIp_notDecoded : goesTo (exec .decIp (loaded frameA)) (fun t => statusOf t == 0x86#32) = true := by
  decide +kernel

/-- V-D3, the registers of frame B (an odd segment and padding). -/
theorem test_decTcp : goesTo (runStopped [.decEth, .decIp, .decTcp] (loaded frameB)) (fun t => decide (t.tcp =
    { sport := 0x3039, dport := 0x0017, seq := 0x11223344, ack := 0x55667788, doff := 5, hlen := 20, flags := 0x018,
      win := 0x0100, csum := 0xAAD2, urg := 0, segOff := 34, segLen := 21, payOff := 54, payLen := 1, padOff := 55,
      padLen := 5 })) = true := by decide +kernel

/-- V-C1. -/
theorem test_csClr : goesTo (exec .csClr { State.reset with acc := 0x4E19 }) (fun t =>
    t.acc == 0 && statusOf t == 0x2#32) = true := by decide +kernel
/-- V-C2. -/
theorem test_csAddw : goesTo (exec (.csAddw 3) { State.reset with acc := 0xFFFE }) (fun t => t.acc == 2) = true := by
  decide +kernel
/-- V-C4. -/
theorem test_csAddw_allOnes : goesTo (exec (.csAddw 0xFFFF) { State.reset with acc := 0xFFFF }) (fun t =>
    t.acc == 0xFFFF) = true := by decide +kernel
/-- V-R14. -/
theorem test_csAddr_s : goesTo (exec (.csAddr true) (withArgs frameA 28 42 48)) (fun t => t.acc == 0x5219) = true := by
  decide +kernel
/-- V-R10. -/
theorem test_csAddr_odd_start : goesTo (exec (.csAddr false) (withArgs frameA 1 6 0)) (fun t =>
    t.acc == 0xB4A2) = true := by decide +kernel
/-- V-C10. -/
theorem test_csAddph_notDecoded : goesTo (exec .csAddph State.reset) (fun t =>
    statusOf t == 0x86#32 && t.errCmd == 0x23#32) = true := by decide +kernel
/-- V-P4. -/
theorem test_csAddph : goesTo (exec .csAddph (decoded frameB)) (fun t => t.acc == 0x816F) = true := by decide +kernel
/-- V-C9 (E1, E5). -/
theorem test_csFin : goesTo (exec .csFin { State.reset with acc := 0x4E19 }) (fun t =>
    t.csumRes == 0xB1E6 && t.acc == 0x4E19) = true := by decide +kernel
/-- V-P1. -/
theorem test_phBuild : decide ((decoded frameA).ph = ⟨0xAC10, 0x0A63, 0xAC10, 0x0A0C, 0x0006, 0x0028⟩) = true := by
  decide +kernel
/-- V-P6. -/
theorem test_chkIp : goesTo (runStopped [.decEth, .decIp, .chkIp] (loaded frameA)) (fun t =>
    t.acc == 0x4E19 && t.csumRes == 0xB1E6 && t.ipCsumCalc == 0xB1E6 && statusOf t == 0x5302#32) = true := by
  decide +kernel
/-- V-P8 (E6). -/
theorem test_chkTcp : goesTo (exec .chkTcp (decoded frameB)) (fun t =>
    t.acc == 0x552D && t.tcpCsumCalc == 0xAAD2 && t.status.tcpOk) = true := by decide +kernel
/-- P2. -/
theorem test_decodeFrame : goesTo (exec .decodeFrame (loaded frameA)) (fun t =>
    statusOf t == 0x1FF02#32 && t.acc == 0x33FE && t.csumRes == 0xCC01) = true := by decide +kernel
/-- V-D13. -/
theorem test_decodeFrame_truncated : goesTo (exec .decodeFrame { loaded frameA with frameLen := 73 }) (fun t =>
    statusOf t == 0x326#32 && t.errCmd == 0x30#32 && t.ip.payLen == 39) = true := by decide +kernel

/-! ### The step and the bus -/

/-- The opcode-table row of DECODE, run as the first command after reset (V-D4 has the same error). -/
theorem test_withFetchWord : goesTo (step (State.reset.withFetchWord 32 0x30)) (fun t =>
    statusOf t == 0x66#32 && t.errCmd == 0x30#32) = true := by decide +kernel
/-- V-E2. -/
theorem test_step_reserved : goesTo (step (State.reset.withFetchWord 32 0x3)) (fun t =>
    statusOf t == 0x76#32 && t.errCmd == 3#32) = true := by decide +kernel
/-- V-B5. -/
theorem test_status_write : goesTo (exec .decodeFrame (loaded frameA)) (fun t =>
    goesTo (t.perform (.w32 0x010 0xFFFFFFFF#32)) fun u => statusOf u == 0x1FF00#32) = true := by decide +kernel
/-- V-B8, after DECODE is accepted. -/
theorem test_busy_write : goesTo (((loaded frameA).accept 0x30#32).perform (.w8 0x1000 0xFF)) (fun t =>
    t.status.wrIgn && t.octet 0 == 0x00#8) = true := by decide +kernel
/-- V-B13. -/
theorem test_buffer_lanes : goesTo (State.reset.perform (.w32 0x1000 0x3c2b1a00#32)) (fun t =>
    t.octet 0 == 0x00#8 && t.octet 1 == 0x1A#8 && t.octet 2 == 0x2B#8 && t.octet 3 == 0x3C#8) = true := by
  decide +kernel
/-- V-B1, V-B2, V-B3. -/
theorem test_register_reads : State.reset.read32 0x000 = 0x49434531#32 ∧ State.reset.read32 0x004 = 0x800#32 ∧
    State.reset.read32 0x05C = 0 := by decide +kernel
/-- V-P13. -/
theorem test_write_invalidates : goesTo (exec .decodeFrame (loaded frameA)) (fun t =>
    goesTo (t.perform (.w8 (0x1000 + 54) 0x30)) fun u => statusOf u == 0x2#32 && u.ip.csum == 0xB1E6) = true := by
  decide +kernel
/-- R8: ADDR_BITS of the default is 13. -/
theorem test_addrBits : addrBits Config.Params.default = 13 ∧ addrBits ⟨4096⟩ = 13 ∧ addrBits ⟨4097⟩ = 14 := by
  decide +kernel
/-- R131. -/
theorem test_assemble : assemble ['c', 's', '.', 'a', 'd', 'd', 'R', '.', 's'] none = some (.csAddr true) ∧
    assemble ['C', 's', '.', 'a', 'd', 'd', 'w'] (some 0x10000) = none := by decide +kernel

/-! ### Witnesses: the hypotheses of each obligation are met, at boundary values where a clause has a range -/

/-- DECODE pending on frame A, the engine to move. -/
def pendingA : State := (loaded frameA).placeCommand 0x30#32

/-- `s` with one input to come. -/
def facing (s : State) (a : Input) : State := { s with inputs := [a] }

/-- The block busy, the host to move with input `a`. -/
def busyFacing (a : Input) : State := { (loaded frameA).accept 0x30#32 with turns := [.host], inputs := [a] }

theorem facing_hostDoes (s : State) (a : Input) (ht : s.turns = []) (hp : s.pending = none) :
    (facing s a).hostDoes a { s with turns := s.turns.tail, inputs := [] } :=
  ⟨.inr ⟨ht, hp⟩, [], rfl, rfl⟩

theorem busyFacing_hostDoes (a : Input) :
    (busyFacing a).hostDoes a { (loaded frameA).accept 0x30#32 with turns := [], inputs := [] } :=
  ⟨.inl rfl, [], rfl, rfl⟩

theorem witness_stepRuns : pendingA.engineDoes 0x30#32 { pendingA with turns := pendingA.turns.tail } ∧
    decode 0x30#32 = .command .decodeFrame := ⟨⟨.inr rfl, rfl, rfl⟩, by decide⟩

/-- A turn for the engine, a reserved word (the EveryCompletion, Interrupt and Reserved statements too). -/
theorem witness_reserved : ({ pendingA with pending := some 0x31#32, turns := [.engine] } : State).engineDoes 0x31#32
    { pendingA with pending := some 0x31#32, turns := [] } ∧ reservedWord 0x31#32 ∧ ¬ reservedWord 0xFFFF0021#32 :=
  ⟨⟨.inl rfl, rfl, rfl⟩, by unfold reservedWord; decide, by unfold reservedWord; decide⟩

theorem witness_decode : decode 0xFFFF0021#32 = .command (.csAddw 0xFFFF) := by decide

theorem witness_pendingCompletes : ({ pendingA with turns := [.host, .engine, .host] } : State).pending = some 0x30#32 ∧
    ({ pendingA with turns := [.host, .engine, .host] } : State).inputs = [] := ⟨rfl, rfl⟩

theorem witness_xNib : ∃ s : State, s.frameLen.toNat ≤ s.params.frameBytes ∧ 1 ≤ s.argLen.toNat ∧
    s.argLen.toNat = 16 ∧ s.argStart.toNat + s.argLen.toNat = 2 * s.frameLen.toNat :=
  ⟨withArgs frameA 132 16 0, by decide +kernel⟩

/-- Each error of X.NIB at its boundary: FRAME_LEN 2049, length 0, length 17, one nibble past the end. -/
theorem witness_xNib_errors : (exec .xNib { withArgs frameA 0 0 0 with frameLen := 2049 } |> stateOf).status.errCode = 9 ∧
    (exec .xNib (withArgs frameA 147 0 0) |> stateOf).status.errCode = 1 ∧
    (exec .xNib (withArgs frameA 148 17 0) |> stateOf).status.errCode = 9 ∧
    (exec .xNib (withArgs frameA 148 1 0) |> stateOf).status.errCode = 2 := by decide +kernel

theorem witness_xNib_firstError : firstError [((withArgs frameA 148 1 0).frameTooLong, .badOperand),
    (decide ((withArgs frameA 148 1 0).argLen.toNat = 0), .missingValue),
    (decide ((withArgs frameA 148 1 0).argLen.toNat > 16), .badOperand),
    (decide ((withArgs frameA 148 1 0).argStart.toNat + (withArgs frameA 148 1 0).argLen.toNat >
      2 * (withArgs frameA 148 1 0).frameLen.toNat), .outOfRange)] = some .outOfRange := by decide +kernel

theorem witness_xBit : ∃ s : State, s.frameLen.toNat ≤ s.params.frameBytes ∧ 1 ≤ s.argLen.toNat ∧
    s.argLen.toNat = 64 ∧ s.argStart.toNat + s.argLen.toNat = 8 * s.frameLen.toNat :=
  ⟨withArgs frameA 528 64 0, by decide +kernel⟩

theorem witness_xBit_firstError : firstError [((withArgs frameA 0 65 0).frameTooLong, .badOperand),
    (decide ((withArgs frameA 0 65 0).argLen.toNat = 0), .missingValue),
    (decide ((withArgs frameA 0 65 0).argLen.toNat > 64), .badOperand),
    (decide ((withArgs frameA 0 65 0).argStart.toNat + (withArgs frameA 0 65 0).argLen.toNat >
      8 * (withArgs frameA 0 65 0).frameLen.toNat), .outOfRange)] = some .badOperand := by decide +kernel

/-- DEC.ETH completes at its shortest frame, 14 octets (V-D5). -/
theorem witness_decEth : ∃ s : State, s.frameLen.toNat ≤ s.params.frameBytes ∧ s.frameLen.toNat = 14 ∧
    s.be 12 2 = 0x0800 := ⟨{ loaded frameA with frameLen := 14 }, by decide +kernel⟩

/-- The three ways DEC.ETH fails: 2049 octets, 13 octets (V-D4), an ARP frame. -/
theorem witness_decEth_errors : ({ loaded frameA with frameLen := 2049 } : State).frameTooLong = true ∧
    (loaded frameC).frameTooLong = false ∧
    firstError [(decide ((loaded frameC).frameLen.toNat < 14), .malformedInput),
      (decide ((loaded frameC).be 12 2 ≠ 0x0800), .notIpPacket)] = some .notIpPacket := by decide +kernel

/-- Frame A after DEC.ETH. -/
def ethA : State := stateOf (exec .decEth (loaded frameA))

theorem witness_decIp : ethA.eth.payOff.toNat = 14 ∧ (ethA.octet 14).toNat % 16 = 5 ∧
    ethA.frameLen.toNat ≤ ethA.params.frameBytes ∧ ethA.status.ethV = true ∧ 14 + 20 ≤ ethA.frameLen.toNat ∧
    ethA.octet (14 + 9) = 6#8 ∧ 14 + 4 * 5 ≤ ethA.frameLen.toNat := by decide +kernel

/-- The five ways DEC.IP fails after the frame-length check, each at its boundary (V-D6, V-D8, V-D9, V-D12). -/
theorem witness_decIp_errors :
    (stateOf (exec .decIp { ethA with status := Status.reset })).status.errCode = 8 ∧
    (stateOf (exec .decIp { ethA with frameLen := 33 })).status.errCode = 6 ∧
    (stateOf (exec .decIp { ethA with buffer := ethA.buffer.write 23 0x11 })).status.errCode = 5 ∧
    (stateOf (exec .decIp { ethA with buffer := ethA.buffer.write 14 0x44 })).status.errCode = 6 ∧
    (stateOf (exec .decIp { ethA with buffer := ethA.buffer.write 14 0x4F, frameLen := 73 })).status.errCode = 6 ∧
    firstError [(!ethA.status.ethV, .notDecoded), (decide ((33 : Int) - 14 < 20), .malformedInput)] =
      some .malformedInput := by decide +kernel

/-- Frame A after DEC.ETH and DEC.IP. -/
def ipA : State := stateOf (exec .decIp ethA)

theorem witness_decTcp : ipA.ip.payOff.toNat = 34 ∧ (ipA.ip.totlen.toNat : Int) - ipA.ip.hlen.toNat = 40 ∧
    (ipA.octet (34 + 12)).toNat / 16 = 5 ∧ ipA.frameLen.toNat ≤ ipA.params.frameBytes ∧ ipA.status.ipV = true ∧
    (34 : Int) + 40 ≤ ipA.frameLen.toNat ∧ (20 : Int) ≤ 40 ∧ 4 * 5 ≤ (40 : Int) := by decide +kernel

/-- The five ways DEC.TCP fails after the frame-length check (V-D13 to V-D15, V-D17). -/
theorem witness_decTcp_errors :
    (stateOf (exec .decTcp ethA)).status.errCode = 8 ∧
    (stateOf (exec .decTcp { ipA with ip := { ipA.ip with totlen := 19 } })).status.errCode = 6 ∧
    (stateOf (exec .decTcp { ipA with frameLen := 73 })).status.errCode = 2 ∧
    (stateOf (exec .decTcp { ipA with ip := { ipA.ip with totlen := 39 } })).status.errCode = 6 ∧
    (stateOf (exec .decTcp { ipA with buffer := ipA.buffer.write 46 0x42 })).status.errCode = 6 ∧
    firstError [(!ipA.status.ipV, .notDecoded), (decide ((-1 : Int) < 0), .malformedInput)] =
      some .malformedInput := by decide +kernel

/-- A range that ends at the frame's end, with and without a skipped last word. -/
theorem witness_csAddr : ∃ s : State, s.frameLen.toNat ≤ s.params.frameBytes ∧
    s.argStart.toNat + s.argLen.toNat = 2 * s.frameLen.toNat ∧ s.argLen.toNat % 2 = 0 ∧
    s.argStart.toNat ≤ s.argSkip.toNat ∧ s.argSkip.toNat < s.argStart.toNat + s.argLen.toNat ∧
    (s.argSkip.toNat - s.argStart.toNat) % 4 = 0 := ⟨withArgs frameA 106 42 146, by decide +kernel⟩

/-- The errors of CS.ADDR in order (V-R6, V-R7, V-R4, V-R12). -/
theorem witness_csAddr_errors : (stateOf (exec (.csAddr false) (withArgs frameA 147 2 0))).status.errCode = 2 ∧
    (stateOf (exec (.csAddr false) (withArgs frameA 0 3 0))).status.errCode = 3 ∧
    (stateOf (exec (.csAddr true) (withArgs frameA 0 0 0))).status.errCode = 9 ∧
    (stateOf (exec (.csAddr true) (withArgs frameA 28 40 68))).status.errCode = 9 ∧
    firstError [((withArgs frameA 28 40 68).frameTooLong, .badOperand), (decide (28 + 40 > 2 * 74), .outOfRange),
      (decide (40 % 2 = 1), .oddLength),
      (true && decide (68 < 28 ∨ 68 ≥ 28 + 40 ∨ (68 - 28) % 4 ≠ 0), .badOperand)] = some .badOperand := by
  decide +kernel

theorem witness_csAddph : (decoded frameA).status.phV = true ∧ State.reset.status.phV = false := by decide +kernel
theorem witness_phBuild : (decoded frameA).status.tcpV = true ∧ State.reset.status.tcpV = false := by decide +kernel

theorem witness_chkIp : ∃ (s : State) (total : Nat) (c : Half),
    total = (([0, 1, 2, 3, 4, 6, 7, 8, 9] : List Nat).map fun k => s.be (s.eth.payOff.toNat + 2 * k) 2).sum ∧
    c = BitVec.ofNat 16 (0xFFFF - onesSum total) ∧ s.frameLen.toNat ≤ s.params.frameBytes ∧ s.status.ipV = true :=
  ⟨ipA, _, _, rfl, rfl, by decide +kernel, by decide +kernel⟩
theorem witness_chkIp_errors : ({ ipA with frameLen := 2049 } : State).frameTooLong = true ∧
    ethA.frameTooLong = false ∧ ethA.status.ipV = false := by decide +kernel

theorem witness_chkTcp : ∃ (s : State) (t len total : Nat) (c : Half), t = s.tcp.segOff.toNat ∧
    len = s.tcp.segLen.toNat ∧
    total = (s.ph.w0.toNat + s.ph.w1.toNat + s.ph.w2.toNat + s.ph.w3.toNat + s.ph.w4.toNat + s.ph.w5.toNat) +
      ((List.range ((len + 1) / 2)).map fun j =>
        if j = 8 then 0
        else (s.octet (t + 2 * j)).toNat * 256 + if 2 * j + 1 < len then (s.octet (t + 2 * j + 1)).toNat else 0).sum ∧
    c = BitVec.ofNat 16 (0xFFFF - onesSum total) ∧ s.frameLen.toNat ≤ s.params.frameBytes ∧ s.status.phV = true :=
  ⟨decoded frameB, _, _, _, _, rfl, rfl, rfl, rfl, by decide +kernel, by decide +kernel⟩
theorem witness_chkTcp_errors : ({ decoded frameA with frameLen := 2049 } : State).frameTooLong = true ∧
    ipA.frameTooLong = false ∧ ipA.status.phV = false := by decide +kernel

theorem witness_decodeOfAGoodFrame : (loaded frameA).ethAccepts ∧ (loaded frameA).ipAccepts 14 ∧
    (loaded frameA).tcpAccepts (14 + (loaded frameA).ipHlenAt 14) ((loaded frameA).be 16 2)
      ((loaded frameA).ipHlenAt 14) := by
  unfold State.ethAccepts State.ipAccepts State.tcpAccepts
  decide +kernel

/-- Frame A after DECODE (DecodeTwice, CommandsRaise and CommandsWrite too). -/
def afterA : State := stateOf (exec .decodeFrame (loaded frameA))

theorem witness_execNext : exec .decodeFrame (loaded frameA) = .next afterA := by
  obtain ⟨r, h⟩ := exec_next .decodeFrame (loaded frameA)
  rw [afterA, h]
  rfl

/-- Two different states with the same frame. -/
theorem witness_sameFrame : (loaded frameA).sameFrame afterA ∧ (loaded frameA).frameLen.toNat ≤ 2048 ∧
    loaded frameA ≠ afterA := by
  refine ⟨⟨by decide +kernel, by decide +kernel, fun i _ => ?_⟩, by decide +kernel, by decide +kernel⟩
  have hb : afterA.buffer = (loaded frameA).buffer := by decide +kernel
  have hp : afterA.powerOns = (loaded frameA).powerOns := by decide +kernel
  rw [State.octet, State.octet, hb, hp]

/-- Two states with the same frame whose DECODE fails in the second stage, with ETH_V then 1: frame A with protocol 17. -/
theorem witness_sameFrame_failing : (loaded (frameA.set 23 17)).sameFrame { loaded (frameA.set 23 17) with acc := 5 } ∧
    (stateOf (exec .decodeFrame (loaded (frameA.set 23 17)))).status.errCode = 5#4 ∧
    (stateOf (exec .decodeFrame (loaded (frameA.set 23 17)))).status.ethV = true :=
  ⟨⟨rfl, rfl, fun _ _ => rfl⟩, by decide +kernel, by decide +kernel⟩

theorem witness_failing : (.decEth : Instr) ≠ .decodeFrame ∧
    (stateOf (exec .decEth (loaded frameC))).status.errCode ≠ 0#4 := by decide +kernel

/-- A sound state in which every valid bit and both comparisons are 1. -/
theorem witness_sound : afterA.Sound ∧ afterA.status.tcpV = true ∧ afterA.status.ipOk = true ∧
    afterA.status.tcpOk = true := by
  refine ⟨⟨⟨by decide +kernel, by decide +kernel, by decide +kernel, by decide +kernel, fun c h => ?_, by decide +kernel,
    by decide +kernel, by decide +kernel⟩, ⟨by decide +kernel, by decide +kernel, by decide +kernel, by decide +kernel,
    by decide +kernel, by decide +kernel, by decide +kernel, by decide +kernel, by decide +kernel⟩,
    ⟨fun _ => ?_, fun _ => ?_, fun _ => ?_, by decide +kernel, by decide +kernel, by decide +kernel⟩⟩,
    by decide +kernel, by decide +kernel, by decide +kernel⟩
  · have hp : afterA.pending = none := by decide +kernel
    rw [hp] at h
    cases h
  · unfold State.ethAccepts
    decide +kernel
  · unfold State.ipAccepts
    decide +kernel
  · unfold State.tcpAccepts
    decide +kernel

/-- Another buffer with the same frame: one octet past FRAME_LEN differs. -/
theorem witness_otherBuffer : ∀ k, k < afterA.frameLen.toNat →
    ({ afterA with buffer := afterA.buffer.write 74 0xFF, powerOns := 5 } : State).octet k = afterA.octet k := by
  decide +kernel

/-- afterA with the ARG registers that name frame A's segment and its checksum word. -/
def rawRangeA : State := { afterA with argStart := 68, argLen := 80, argSkip := 100 }

/-- The steps of a host program from power-on: LOADF of two octets is two steps. -/
theorem witness_reachable : Config.Params.default.wf = true ∧ ∃ t, Host.Core.run Sys2Proof.core 2
    { State.powerOn Config.Params.default with
      inputs := loadFrameMacro (octets [1, 2]), turns := [.host, .engine] } = .next t ∧ t.inputs ≠ [] :=
  ⟨by decide, _, rfl, by decide +kernel⟩

/-- The state and operands of RawRangeReproducesTheTcpCheck on frame A; both commands complete (exec_next). -/
theorem witness_rawRange : ∃ s : State, s.Sound ∧ s.status.phV = true ∧
    s.argStart.toNat = 2 * s.tcp.segOff.toNat ∧ s.argLen.toNat = 2 * s.tcp.segLen.toNat ∧
    s.argSkip.toNat = 2 * s.tcp.segOff.toNat + 32 ∧
    ∃ a t, exec .csAddph { s with acc := 0 } = .next a ∧ exec .chkTcp s = .next t := by
  have h := witness_sound.1
  obtain ⟨a, ha⟩ := exec_next .csAddph { rawRangeA with acc := 0 }
  obtain ⟨t, ht⟩ := exec_next .chkTcp rawRangeA
  refine ⟨rawRangeA, ⟨⟨h.1.1, h.1.2, h.1.3, h.1.4, h.1.5, h.1.6, h.1.7, h.1.8⟩,
    ⟨h.2.1, h.2.2, h.2.3, h.2.4, h.2.5, h.2.6, h.2.7, h.2.8, h.2.9⟩,
    ⟨h.3.1, h.3.2, h.3.3, h.3.4, h.3.5, h.3.6⟩⟩, by decide +kernel, by decide +kernel, by decide +kernel,
    by decide +kernel, _, _, ha, ht⟩

/-- A soft reset while DECODE is pending (V-B10), and a power-on reset. -/
theorem witness_resets : (∃ u, (busyFacing (.w32 0x008 2#32)).hostDoes (.w32 0x008 2#32) u) ∧
    (2#32).toNat / 2 % 2 = 1 ∧ ∃ u, (busyFacing .powerOnReset).hostDoes .powerOnReset u :=
  ⟨⟨_, busyFacing_hostDoes _⟩, by decide, ⟨_, busyFacing_hostDoes _⟩⟩

/-- A CMD write while idle and while busy. -/
theorem witness_cmdWrite : (∃ u, (facing (loaded frameA) (.w32 0x00C 0x20#32)).hostDoes (.w32 0x00C 0x20#32) u) ∧
    (loaded frameA).status.busy = false ∧
    (∃ u, (busyFacing (.w32 0x00C 0x20#32)).hostDoes (.w32 0x00C 0x20#32) u) ∧
    (busyFacing (.w32 0x00C 0x20#32)).status.busy = true :=
  ⟨⟨_, facing_hostDoes _ _ rfl rfl⟩, rfl, ⟨_, busyFacing_hostDoes _⟩, rfl⟩

/-- The last octet and the last word of the buffer, while busy and while idle, and the first offset after them. -/
theorem witness_bufferWrites :
    (∃ u, (busyFacing (.w8 (0x1000 + 2047) 0xFF)).hostDoes (.w8 (0x1000 + 2047) 0xFF) u) ∧
    2047 < (busyFacing .wait).params.frameBytes ∧ 2044 % 4 = 0 ∧ 2044 + 4 ≤ (busyFacing .wait).params.frameBytes ∧
    (∃ u, (facing State.reset (.w32 (0x1000 + 2044) 1#32)).hostDoes (.w32 (0x1000 + 2044) 1#32) u) ∧
    0x1000 + State.reset.params.frameBytes ≤ 0x1800 ∧ 0x1800 < 2 ^ addrBits State.reset.params :=
  ⟨⟨_, busyFacing_hostDoes _⟩, by decide, by decide, by decide, ⟨_, facing_hostDoes _ _ rfl rfl⟩, by decide,
    by decide +kernel⟩

/-- A register offset and a reserved one that no write changes (R33: ACC, and 0xFFC). -/
theorem witness_readOnly : 0x028 % 4 = 0 ∧ 0xFFC % 4 = 0 ∧ 0xFFC < 0x1000 ∧
    ¬ (0x028 ∈ [0x008, 0x00C, 0x010, 0x018, 0x01C, 0x020, 0x024]) ∧ (1#32).toNat / 2 % 2 = 0 := by decide

/-- Writes of the unmapped region at its first and its last offset, while busy and while idle (log 7). -/
theorem witness_unmappedWrites :
    (∃ u, (busyFacing (.w32 0x1800 1#32)).hostDoes (.w32 0x1800 1#32) u) ∧ 0x1800 % 4 = 0 ∧
    (∃ u, (busyFacing (.w8 0x1FFF 1#8)).hostDoes (.w8 0x1FFF 1#8) u) ∧
    (∃ u, (facing State.reset (.w8 0x1FFF 1#8)).hostDoes (.w8 0x1FFF 1#8) u) ∧
    0x1FFF < 2 ^ addrBits State.reset.params ∧ (busyFacing .wait).params = State.reset.params :=
  ⟨⟨_, busyFacing_hostDoes _⟩, by decide, ⟨_, busyFacing_hostDoes _⟩, ⟨_, facing_hostDoes _ _ rfl rfl⟩,
    by decide +kernel, rfl⟩

/-- The mnemonics' hypotheses: mixed letters, and a number above 0xFFFF. -/
theorem witness_syntax : ['d', 'E', 'c', '.', 'I', 'p'].map Char.toUpper = mnemonic .decIp ∧
    assemble ['c', 's', '.', 'A', 'd', 'd', 'W'] (some 3) = some (.csAddw 3) ∧ 0xFFFF < 0x10000 := by decide +kernel

/-- A read of each kind: a register, a reserved offset, the last buffer word, the unmapped region. -/
theorem witness_reads : (∃ u, (facing State.reset (.r32 0x1800)).hostDoes (.r32 0x1800) u) ∧
    0x000 = Reg.id.offset ∧ Reg.at? 0xFFC = none ∧ 0x17FC + 4 ≤ 0x1000 + State.reset.params.frameBytes ∧
    0x1800 % 4 = 0 ∧ 0x1800 < 2 ^ addrBits State.reset.params ∧
    (∃ u, (facing State.reset (.r8 0x17FF)).hostDoes (.r8 0x17FF) u) :=
  ⟨⟨_, facing_hostDoes _ _ rfl rfl⟩, rfl, by decide, by decide, by decide, by decide +kernel,
    ⟨_, facing_hostDoes _ _ rfl rfl⟩⟩

theorem witness_wait : (∃ u, (facing State.reset .wait).hostDoes .wait u) ∧ State.reset.status.busy = false ∧
    (∃ u, (busyFacing .wait).hostDoes .wait u) ∧ (busyFacing .wait).status.busy = true :=
  ⟨⟨_, facing_hostDoes _ _ rfl rfl⟩, rfl, ⟨_, busyFacing_hostDoes _⟩, rfl⟩

/-- Accesses that are not admitted: 8 bits to the last register offset, a 32-bit access across the end of a buffer of 54
octets. -/
theorem witness_notAdmitted : (∃ u, (facing State.reset (.r8 0xFFF)).hostDoes (.r8 0xFFF) u) ∧
    0xFFF < 2 ^ addrBits State.reset.params ∧
    (∃ u, (facing (State.powerOn ⟨54⟩) (.w32 0x1034 0)).hostDoes (.w32 0x1034 0) u) ∧
    0x1034 < 2 ^ addrBits ⟨54⟩ ∧ 0x1034 < 0x1000 + 54 ∧ 0x1000 + 54 < 0x1034 + 4 :=
  ⟨⟨_, facing_hostDoes _ _ rfl rfl⟩, by decide +kernel, ⟨_, facing_hostDoes _ _ rfl rfl⟩, by decide +kernel, by decide,
    by decide⟩

theorem witness_addressWidth : 0x1000 + Config.Params.default.frameBytes ≤ 2 ^ 13 := by decide

/-- The pending command of PendingCommandKeepsItsInputs, in a state that meets Protocol. -/
theorem witness_pendingKeeps : (busyFacing (.w32 0x020 5#32)).Protocol ∧
    (busyFacing (.w32 0x020 5#32)).pending = some 0x30#32 ∧
    ∃ u, (busyFacing (.w32 0x020 5#32)).hostDoes (.w32 0x020 5#32) u :=
  ⟨⟨by decide +kernel, by decide +kernel, by decide +kernel, rfl, fun c h => by cases h; rfl, fun _ => rfl, rfl,
    by decide +kernel⟩, rfl, ⟨_, busyFacing_hostDoes _⟩⟩

/-- LOADF of five octets: a whole word and a last word with one octet. -/
theorem witness_loadFrame : ∃ s : State, s = { State.reset with inputs := loadFrameMacro (octets [1, 2, 3, 4, 5]) ++ [] } ∧
    s.Protocol ∧ s.pending = none ∧ s.turns = [] ∧ 4 * ((5 + 3) / 4) ≤ s.params.frameBytes :=
  ⟨_, rfl, ⟨by decide, by decide, rfl, rfl, fun c h => (by cases h), fun h => (by cases h), rfl, by decide⟩, rfl, rfl,
    by decide⟩

end Sys2Proof.Tests
end

section
/-! The family `00_scope.md`: the views of the frame (R11, R12) and the width of the bus's offsets (R8). -/

namespace Sys2Proof.Machine

/-! ### Digits in groups -/

/-- A big-endian number splits after its first `n` digits. -/
theorem bigEndian_add (base : Nat) (digit : Nat → Nat) (i n m : Nat) :
    bigEndian base digit i (n + m) = bigEndian base digit i n * base ^ m + bigEndian base digit (i + n) m := by
  induction m with
  | zero => simp
  | succ m ih =>
    rw [← Nat.add_assoc, bigEndian_succ, bigEndian_succ, ih, pow_succ, Nat.add_assoc i n m]
    ring

/-- Horner's form of R12 is the sum of the digits by powers of the base. -/
theorem bigEndian_eq_sum (base : Nat) (digit : Nat → Nat) (i n : Nat) :
    bigEndian base digit i n = ((List.range n).map fun k => digit (i + k) * base ^ (n - 1 - k)).sum := by
  induction n generalizing i with
  | zero => rfl
  | succ n ih =>
    have head : bigEndian base digit i (n + 1) = digit i * base ^ n + bigEndian base digit (i + 1) n := by
      rw [Nat.add_comm n 1, bigEndian_add, bigEndian_succ, bigEndian_zero, Nat.zero_mul, Nat.zero_add, Nat.add_zero]
    rw [head, ih, List.range_succ_eq_map]
    simp [Function.comp_def, Nat.sub_sub, Nat.add_assoc, Nat.add_comm 1]

/-- When each digit in base `base ^ m` is a group of `m` digits in base `base`, a range of whole groups has one value
in both bases. -/
theorem bigEndian_of_groups {base m : Nat} {small big : Nat → Nat} (h : ∀ k, bigEndian base small (m * k) m = big k)
    (i n : Nat) : bigEndian base small (m * i) (m * n) = bigEndian (base ^ m) big i n := by
  induction n with
  | zero => rfl
  | succ n ih => rw [Nat.mul_succ, bigEndian_add, ih, ← Nat.mul_add, h, bigEndian_succ]

/-! ### The nibbles and bits of an octet (R11) -/

theorem State.nib_even (s : State) (i : Nat) : s.nib (2 * i) = (s.octet i).extractLsb' 4 4 := by
  simp [State.nib]

theorem State.nib_odd (s : State) (i : Nat) : s.nib (2 * i + 1) = (s.octet i).extractLsb' 0 4 := by
  have half : (2 * i + 1) / 2 = i := by omega
  simp [State.nib, half]

theorem State.nib_even_toNat (s : State) (i : Nat) : (s.nib (2 * i)).toNat = (s.octet i).toNat / 16 := by
  have lt := (s.octet i).isLt
  rw [State.nib_even, BitVec.extractLsb'_toNat, Nat.shiftRight_eq_div_pow]
  omega

theorem State.nib_odd_toNat (s : State) (i : Nat) : (s.nib (2 * i + 1)).toNat = (s.octet i).toNat % 16 := by
  rw [State.nib_odd, BitVec.extractLsb'_toNat, Nat.shiftRight_zero]

/-- Bit `b` of octet `i`, counted from the most significant one: the first four bits lie in the octet's even nibble, the
last four in its odd one. -/
theorem State.bit_of_octet (s : State) (i : Nat) {b : Nat} (hb : b < 8) :
    s.bit (8 * i + b) = (s.octet i).getLsbD (7 - b) := by
  rcases Nat.lt_or_ge b 4 with high | low
  · have quot : (8 * i + b) / 4 = 2 * i := by omega
    have pos : 4 + (3 - (8 * i + b) % 4) = 7 - b := by omega
    have lt : 3 - (8 * i + b) % 4 < 4 := by omega
    simp [State.bit, quot, State.nib_even, pos, lt]
  · have quot : (8 * i + b) / 4 = 2 * i + 1 := by omega
    have pos : 3 - (8 * i + b) % 4 = 7 - b := by omega
    have lt : 7 - b < 4 := by omega
    simp [State.bit, quot, State.nib_odd, pos, lt]

theorem State.bit_toNat (s : State) (i : Nat) {b : Nat} (hb : b < 8) :
    (s.bit (8 * i + b)).toNat = (s.octet i).toNat / 2 ^ (7 - b) % 2 := by
  rw [State.bit_of_octet s i hb, BitVec.getLsbD, Nat.toNat_testBit]

/-! ### Ranges of whole octets (R12) -/

theorem State.nbe_octet (s : State) (i : Nat) : s.nbe (2 * i) 2 = (s.octet i).toNat := by
  simp only [State.nbe, bigEndian_succ, bigEndian_zero, Nat.add_zero, State.nib_even_toNat, State.nib_odd_toNat]
  omega

theorem State.bbe_octet (s : State) (i : Nat) : s.bbe (8 * i) 8 = (s.octet i).toNat := by
  have lt := (s.octet i).isLt
  simp only [State.bbe, bigEndian_succ, bigEndian_zero, State.bit_toNat, Nat.reduceLT]
  omega

theorem State.nbe_eq_be (s : State) (i n : Nat) : s.nbe (2 * i) (2 * n) = s.be i n :=
  bigEndian_of_groups s.nbe_octet i n

theorem State.bbe_eq_be (s : State) (i n : Nat) : s.bbe (8 * i) (8 * n) = s.be i n :=
  bigEndian_of_groups s.bbe_octet i n

/-- Settles O7: the nibbles and bits are digits of their octet, and whole octets are groups of two nibbles or eight
bits. -/
theorem frameViewsAgree : Obligations.FrameViewsAgree := by
  unfold Obligations.FrameViewsAgree
  intro s i n
  exact ⟨s.nib_even_toNat i, s.nib_odd_toNat i, fun _ hb => s.bit_toNat i hb, bigEndian_eq_sum .., s.nbe_eq_be i n,
    s.bbe_eq_be i n⟩

/-! ### The width of an offset (R8) -/

/-- A width too small for `addrBits` leaves the last octet of the buffer without an offset. -/
theorem addrBits_le_of_bufferEnd_le {p : Config.Params} {n : Nat} (h : bufferEnd p ≤ 2 ^ n) : addrBits p ≤ n := by
  have base : Config.bufferBase = 0x1000 := rfl
  have last : Config.bufferBase + p.frameBytes - 1 < 2 ^ n := by rw [bufferEnd] at h; omega
  exact (Nat.log2_lt (by omega)).mpr last

/-- Settles O49: every offset below the buffer's end fits in ADDR_BITS, and a width that holds them all is no smaller. -/
theorem addressWidthIsTheSmallest : Obligations.AddressWidthIsTheSmallest := by
  unfold Obligations.AddressWidthIsTheSmallest
  exact fun p => ⟨bufferEnd_le_addrBits p, fun _ => addrBits_le_of_bufferEnd_le⟩

end Sys2Proof.Machine
end

section
/-! The family `10_state.md`: what a completion and an access leave, the three invariants that every step keeps (R59 to
R62), the resets, the host's writes (R36 to R48) and the register map (R33). -/

namespace Sys2Proof.Machine

/-! ### The state a command's rule ends in, before the completion is recorded -/

/-- The state a rule ends in, with its commit or with an error. -/
def Result.state : Result → State
  | .done s => s
  | .failed _ s => s

/-- The commit of a stage whose checks pass. -/
inductive StageCommit (s : State) : Stage → State → Prop
  | decEth (accepts : s.ethAccepts) : StageCommit s .decEth { s with
      eth := s.ethFields, status := { s.status.withoutFrame with ethV := true } }
  | decIp (ethV : s.status.ethV = true) (accepts : s.ipAccepts s.eth.payOff.toNat) : StageCommit s .decIp { s with
      ip := s.ipFields s.eth.payOff.toNat, status := { s.status.withoutIp with ipV := true } }
  | decTcp (ipV : s.status.ipV = true) (accepts : s.tcpAccepts s.ip.payOff.toNat s.ip.totlen.toNat s.ip.hlen.toNat) :
      StageCommit s .decTcp { s with
        tcp := s.tcpFields s.ip.payOff.toNat s.segmentLen, status := { s.status.withoutTcp with tcpV := true } }
  | phBuild (tcpV : s.status.tcpV = true) : StageCommit s .phBuild { s with
      ph := s.phFields, status := { s.status.withoutPh with phV := true } }
  | chkIp (ipV : s.status.ipV = true) : StageCommit s .chkIp { s with
      acc := s.ipSum, csumRes := checksumOf s.ipSum, ipCsumCalc := checksumOf s.ipSum
      status := { s.status with ipCkV := true, ipOk := checksumOf s.ipSum == s.ip.csum, frameV := false } }
  | chkTcp (phV : s.status.phV = true) : StageCommit s .chkTcp { s with
      acc := s.tcpSum, csumRes := checksumOf s.tcpSum, tcpCsumCalc := checksumOf s.tcpSum
      status := { s.status with tcpCkV := true, tcpOk := checksumOf s.tcpSum == s.tcp.csum, frameV := false } }

/-- A stage clears its invalidation set and fails, or commits. Only DEC.ETH's commit says anything of the frame-length
check, which comes before the stage. -/
theorem Stage.body_ends (st : Stage) {s : State} (len : st = .decEth → s.frameLen.toNat ≤ s.params.frameBytes) :
    (∃ e, st.body s = .failed e (s.invalidate st)) ∨ ∃ t, st.body s = .done t ∧ StageCommit s st t := by
  cases st
  · obtain ⟨e, -, h⟩ | ⟨long, ipv4, h⟩ := decEthBody_cases s
    · exact .inl ⟨e, h⟩
    · exact .inr ⟨_, h, .decEth ⟨len rfl, long, ipv4⟩⟩
  · obtain ⟨e, -, h⟩ | ⟨ethV, accepts, h⟩ := decIpBody_cases s
    · exact .inl ⟨e, h⟩
    · exact .inr ⟨_, h, .decIp ethV accepts⟩
  · obtain ⟨e, -, h⟩ | ⟨ipV, accepts, h⟩ := decTcpBody_cases s
    · exact .inl ⟨e, h⟩
    · exact .inr ⟨_, h, .decTcp ipV accepts⟩
  · obtain ⟨-, h⟩ | ⟨tcpV, h⟩ := phBuildBody_cases s
    · exact .inl ⟨_, h⟩
    · exact .inr ⟨_, h, .phBuild tcpV⟩
  · obtain ⟨-, h⟩ | ⟨ipV, h⟩ := chkIpBody_cases s
    · exact .inl ⟨_, h⟩
    · exact .inr ⟨_, h, .chkIp ipV⟩
  · obtain ⟨-, h⟩ | ⟨phV, h⟩ := chkTcpBody_cases s
    · exact .inl ⟨_, h⟩
    · exact .inr ⟨_, h, .chkTcp phV⟩

/-- The command a stage of DECODE is named after (R261). -/
def Stage.command : Stage → Instr
  | .decEth => .decEth
  | .decIp => .decIp
  | .decTcp => .decTcp
  | .phBuild => .phBuild
  | .chkIp => .chkIp
  | .chkTcp => .chkTcp

/-- All a command can do before its completion is recorded: nothing; its one result register; its invalidation set, or
its commit after that; and for DECODE, what its stages do, with FRAME_V when all of them commit. -/
inductive CommandEnd (s : State) : Instr → State → Prop
  | unchanged {i : Instr} : CommandEnd s i s
  | xRes {i : Instr} (writer : i = .xNib ∨ i = .xBit) (v : Nat) : CommandEnd s i (s.setXRes v)
  | acc {i : Instr} (writer : i = .csClr ∨ (∃ w, i = .csAddw w) ∨ (∃ k, i = .csAddr k) ∨ i = .csAddph) (a : Half) :
      CommandEnd s i { s with acc := a }
  | csumRes (a : Half) : CommandEnd s .csFin { s with csumRes := a }
  | invalidated (st : Stage) : CommandEnd s st.command (s.invalidate st)
  | committed {st : Stage} {t : State} (commit : StageCommit s st t) : CommandEnd s st.command t
  | decodeFailed {e : CmdError} {t : State} (len : s.frameLen.toNat ≤ s.params.frameBytes)
      (run : runStages Stage.order (s.invalidate .decEth) = .failed e t) : CommandEnd s .decodeFrame t
  | decodeDone {t : State} (len : s.frameLen.toNat ≤ s.params.frameBytes)
      (run : runStages Stage.order (s.invalidate .decEth) = .done t) :
      CommandEnd s .decodeFrame (t.withStatus { t.status with frameV := true })

theorem CommandEnd.of_checkFrameLen {s : State} {i : Instr} {body : State → Result}
    (h : s.frameLen.toNat ≤ s.params.frameBytes → CommandEnd s i (body s).state) :
    CommandEnd s i (checkFrameLen body s).state := by
  obtain ⟨-, e⟩ | ⟨len, e⟩ := checkFrameLen_cases body s
  · rw [e]; exact .unchanged
  · rw [e]; exact h len

theorem CommandEnd.of_stage (st : Stage) {s : State}
    (len : st = .decEth → s.frameLen.toNat ≤ s.params.frameBytes) : CommandEnd s st.command (st.body s).state := by
  obtain ⟨e, h⟩ | ⟨t, h, commit⟩ := st.body_ends len
  · rw [h]; exact .invalidated st
  · rw [h]; exact .committed commit

theorem CommandEnd.of_decodeBody {s : State} (len : s.frameLen.toNat ≤ s.params.frameBytes) :
    CommandEnd s .decodeFrame (decodeBody s).state := by
  rw [decodeBody]
  cases run : runStages Stage.order (s.invalidate .decEth) with
  | done t => exact .decodeDone len run
  | failed e t => exact .decodeFailed len run

/-- What every command is: a rule that ends in one of the states of `CommandEnd`, and the recording of R305. -/
theorem exec_ends (i : Instr) (s : State) :
    ∃ r : Result, exec i s = .next (r.complete (encode i)) ∧ CommandEnd s i r.state := by
  have checked (st : Stage) : CommandEnd s st.command (checkFrameLen st.body s).state :=
    .of_checkFrameLen fun len => .of_stage st fun _ => len
  cases i with
  | nop => exact ⟨_, rfl, .unchanged⟩
  | xNib =>
    refine ⟨_, rfl, .of_checkFrameLen fun _ => ?_⟩
    obtain ⟨e, -, h⟩ | ⟨-, -, -, h⟩ := xNibBody_cases s
    · rw [h]; exact .unchanged
    · rw [h]; exact .xRes (.inl rfl) _
  | xBit =>
    refine ⟨_, rfl, .of_checkFrameLen fun _ => ?_⟩
    obtain ⟨e, -, h⟩ | ⟨-, -, -, h⟩ := xBitBody_cases s
    · rw [h]; exact .unchanged
    · rw [h]; exact .xRes (.inr rfl) _
  | decEth => exact ⟨_, rfl, checked .decEth⟩
  | decIp => exact ⟨_, rfl, checked .decIp⟩
  | decTcp => exact ⟨_, rfl, checked .decTcp⟩
  | csClr => exact ⟨_, rfl, .acc (.inl rfl) _⟩
  | csAddw w => exact ⟨_, rfl, .acc (.inr (.inl ⟨w, rfl⟩)) _⟩
  | csAddr skip =>
    refine ⟨_, rfl, .of_checkFrameLen fun _ => ?_⟩
    obtain ⟨e, -, h⟩ | ⟨-, -, -, h⟩ := csAddrBody_cases skip s
    · rw [h]; exact .unchanged
    · rw [h]; exact .acc (.inr (.inr (.inl ⟨skip, rfl⟩))) _
  | csAddph =>
    refine ⟨_, rfl, ?_⟩
    split
    · exact .unchanged
    · exact .acc (.inr (.inr (.inr rfl))) _
  | csFin => exact ⟨_, rfl, .csumRes _⟩
  | phBuild => exact ⟨_, rfl, .of_stage .phBuild nofun⟩
  | chkIp => exact ⟨_, rfl, checked .chkIp⟩
  | chkTcp => exact ⟨_, rfl, checked .chkTcp⟩
  | decodeFrame => exact ⟨_, rfl, .of_checkFrameLen .of_decodeBody⟩

/-- The completion of a word: that of its command, or for a reserved word the recording alone. -/
theorem completeCommand_ends {c : Word} {s t : State} (h : completeCommand c s = .next t) :
    ∃ (r : Result) (w : Word), t = r.complete w ∧ ∃ i, CommandEnd s i r.state := by
  obtain ⟨-, e⟩ | ⟨i, -, e⟩ := completeCommand_cases c s
  · rw [e] at h
    injection h with h
    exact ⟨.failed .illegalCommand s, c, h.symm, .nop, .unchanged⟩
  · obtain ⟨r, er, ends⟩ := exec_ends i s
    rw [e, er] at h
    injection h with h
    exact ⟨r, encode i, h.symm, i, ends⟩

/-! ### The stages of DECODE -/

/-- Carry a property through the stages of DECODE: clearing an invalidation set, a stage's commit and the record of the
stage keep it. -/
theorem runStages_keeps {P : State → Prop} (invalidate : ∀ s st, P s → P (s.invalidate st))
    (commit : ∀ s st t, P s → StageCommit s st t → P t) (record : ∀ s st, P s → P { s with stage := some st })
    {stages : List Stage} {s : State} {r : Result} (run : runStages stages s = r)
    (len : s.frameLen.toNat ≤ s.params.frameBytes) (h : P s) : P r.state := by
  have hDone (st : Stage) (s t : State) (hs : P s ∧ s.frameLen.toNat ≤ s.params.frameBytes)
      (e : st.body s = .done t) :
      P { t with stage := some st } ∧ t.frameLen.toNat ≤ t.params.frameBytes := by
    obtain ⟨e', h⟩ | ⟨t', h, c⟩ := st.body_ends fun _ => hs.2
    · cases h.symm.trans e
    · cases h.symm.trans e
      exact ⟨record _ _ (commit _ _ _ hs.1 c), by cases c <;> exact hs.2⟩
  have hFail (st : Stage) (s : State) (e : CmdError) (t : State) (hs : P s ∧ s.frameLen.toNat ≤ s.params.frameBytes)
      (eq : st.body s = .failed e t) : P t ∧ t.frameLen.toNat ≤ t.params.frameBytes := by
    obtain ⟨e', h⟩ | ⟨t', h, -⟩ := st.body_ends fun _ => hs.2
    · cases h.symm.trans eq
      exact ⟨invalidate _ _ hs.1, hs.2⟩
    · cases h.symm.trans eq
  obtain ⟨t, e, ht, -⟩ | ⟨_, t, e, ht, -⟩ := runStages_induction
    (P := fun s => P s ∧ s.frameLen.toNat ≤ s.params.frameBytes) hDone hFail stages ⟨h, len⟩
  · cases run.symm.trans e; exact ht
  · cases run.symm.trans e; exact ht

theorem runStages_cons_done {st : Stage} {rest : List Stage} {s t : State}
    (h : runStages (st :: rest) s = .done t) :
    ∃ u, st.body s = .done u ∧ runStages rest { u with stage := some st } = .done t := by
  rw [runStages_cons] at h
  cases e : st.body s with
  | done u => exact ⟨u, rfl, by simpa [e] using h⟩
  | failed err u => simp [e] at h

theorem chkIpBody_done_ipCkV {s t : State} (h : chkIpBody s = .done t) : t.status.ipCkV = true := by
  obtain ⟨-, e⟩ | ⟨-, e⟩ := chkIpBody_cases s <;> cases e.symm.trans h
  rfl

theorem chkTcpBody_done_valid {s t : State} (h : chkTcpBody s = .done t) :
    t.status.tcpCkV = true ∧ t.status.ipCkV = s.status.ipCkV := by
  obtain ⟨-, e⟩ | ⟨-, e⟩ := chkTcpBody_cases s <;> cases e.symm.trans h
  exact ⟨rfl, rfl⟩

/-- When all six stages commit, the last two leave both checks valid. -/
theorem runStages_order_done {s t : State} (h : runStages Stage.order s = .done t) :
    t.status.ipCkV = true ∧ t.status.tcpCkV = true := by
  obtain ⟨_, -, h⟩ := runStages_cons_done h
  obtain ⟨_, -, h⟩ := runStages_cons_done h
  obtain ⟨_, -, h⟩ := runStages_cons_done h
  obtain ⟨_, -, h⟩ := runStages_cons_done h
  obtain ⟨u, chkIp, h⟩ := runStages_cons_done h
  obtain ⟨v, chkTcp, h⟩ := runStages_cons_done h
  cases h
  have ipCkV : u.status.ipCkV = true := chkIpBody_done_ipCkV chkIp
  obtain ⟨tcpCkV, kept⟩ := chkTcpBody_done_valid chkTcp
  exact ⟨kept.trans ipCkV, tcpCkV⟩

/-! ### What no command writes (R33, R92) -/

/-- The part of the state that no command writes: the operand registers, CTRL, CMD, the event bits CMD_OVR and WR_IGN,
the frame buffer and the surroundings; every other field at its reset value. -/
def State.untouched (s : State) : State :=
  { State.powerOn s.params with
    ctrlIE := s.ctrlIE
    cmd := s.cmd
    status := { Status.reset with cmdOvr := s.status.cmdOvr, wrIgn := s.status.wrIgn }
    frameLen := s.frameLen
    argStart := s.argStart
    argLen := s.argLen
    argSkip := s.argSkip
    buffer := s.buffer
    powerOns := s.powerOns
    inputs := s.inputs
    turns := s.turns
    readData := s.readData }

theorem Result.complete_untouched (r : Result) (c : Word) : (r.complete c).untouched = r.state.untouched := by
  cases r <;> rfl

theorem State.invalidate_untouched (s : State) (st : Stage) : (s.invalidate st).untouched = s.untouched := by
  cases st <;> rfl

theorem StageCommit.untouched {s t : State} {st : Stage} (h : StageCommit s st t) : t.untouched = s.untouched := by
  cases h <;> rfl

theorem runStages_untouched {stages : List Stage} {s : State} {r : Result} (run : runStages stages s = r)
    (len : s.frameLen.toNat ≤ s.params.frameBytes) : r.state.untouched = s.untouched :=
  runStages_keeps (P := fun u => u.untouched = s.untouched) (fun u st h => (u.invalidate_untouched st).trans h)
    (fun _ _ _ h c => c.untouched.trans h) (fun _ _ h => h) run len rfl

/-- DECODE does not write X_RES: none of its stages does. -/
theorem runStages_xRes {stages : List Stage} {s : State} {r : Result} (run : runStages stages s = r)
    (len : s.frameLen.toNat ≤ s.params.frameBytes) :
    r.state.xResLo = s.xResLo ∧ r.state.xResHi = s.xResHi :=
  runStages_keeps (P := fun u => u.xResLo = s.xResLo ∧ u.xResHi = s.xResHi) (fun _ _ h => h)
    (fun _ _ _ h c => by cases c <;> exact h) (fun _ _ h => h) run len ⟨rfl, rfl⟩

theorem CommandEnd.untouched {s t : State} {i : Instr} (h : CommandEnd s i t) : t.untouched = s.untouched := by
  cases h with
  | unchanged | xRes | acc | csumRes => rfl
  | invalidated st => exact s.invalidate_untouched st
  | committed commit => exact commit.untouched
  | decodeFailed len run => exact runStages_untouched run len
  | decodeDone len run => exact runStages_untouched run len

theorem CommandEnd.xRes_kept {s t : State} {i : Instr} (h : CommandEnd s i t) :
    (t.xResLo = s.xResLo ∧ t.xResHi = s.xResHi) ∨ i = .xNib ∨ i = .xBit := by
  cases h with
  | xRes writer => exact .inr writer
  | unchanged | acc | csumRes | invalidated => exact .inl ⟨rfl, rfl⟩
  | committed commit => cases commit <;> exact .inl ⟨rfl, rfl⟩
  | decodeFailed len run => exact .inl (runStages_xRes run len)
  | decodeDone len run => exact .inl (runStages_xRes run len)

/-- Which commands write ACC, CSUM_RES and the computed checksums (R33, "written by"). -/
theorem CommandEnd.sums_writers {s t : State} {i : Instr} (h : CommandEnd s i t) :
    (t.acc = s.acc ∨ i = .csClr ∨ (∃ w, i = .csAddw w) ∨ (∃ k, i = .csAddr k) ∨ i = .csAddph ∨ i = .chkIp ∨
      i = .chkTcp ∨ i = .decodeFrame) ∧
    (t.csumRes = s.csumRes ∨ i = .csFin ∨ i = .chkIp ∨ i = .chkTcp ∨ i = .decodeFrame) ∧
    (t.ipCsumCalc = s.ipCsumCalc ∨ i = .chkIp ∨ i = .decodeFrame) ∧
    (t.tcpCsumCalc = s.tcpCsumCalc ∨ i = .chkTcp ∨ i = .decodeFrame) := by
  cases h with
  | unchanged | xRes | csumRes | invalidated => simp
  | acc writer => rcases writer with rfl | ⟨w, rfl⟩ | ⟨k, rfl⟩ | rfl <;> simp
  | committed commit => cases commit <;> simp [Stage.command]
  | decodeFailed | decodeDone => simp

/-- Which commands write the registers of a layer and the pseudo-header (R33, "written by"). -/
theorem CommandEnd.layers_writers {s t : State} {i : Instr} (h : CommandEnd s i t) :
    (t.eth = s.eth ∨ i = .decEth ∨ i = .decodeFrame) ∧ (t.ip = s.ip ∨ i = .decIp ∨ i = .decodeFrame) ∧
    (t.tcp = s.tcp ∨ i = .decTcp ∨ i = .decodeFrame) ∧ (t.ph = s.ph ∨ i = .phBuild ∨ i = .decodeFrame) := by
  cases h with
  | unchanged | xRes | acc | csumRes | invalidated => simp
  | committed commit => cases commit <;> simp [Stage.command]
  | decodeFailed | decodeDone => simp

/-- The recording of a completion writes no register that the host reads but STATUS and ERR_CMD. -/
theorem Result.complete_registers (r : Result) (c : Word) :
    (r.complete c).acc = r.state.acc ∧ (r.complete c).csumRes = r.state.csumRes ∧
    (r.complete c).xResLo = r.state.xResLo ∧ (r.complete c).xResHi = r.state.xResHi ∧
    (r.complete c).ipCsumCalc = r.state.ipCsumCalc ∧ (r.complete c).tcpCsumCalc = r.state.tcpCsumCalc ∧
    (r.complete c).eth = r.state.eth ∧ (r.complete c).ip = r.state.ip ∧ (r.complete c).tcp = r.state.tcp ∧
    (r.complete c).ph = r.state.ph := by
  cases r <;> exact ⟨rfl, rfl, rfl, rfl, rfl, rfl, rfl, rfl, rfl, rfl⟩

/-- The fields of the part that no command writes agree, one by one. -/
theorem State.fields_of_untouched {s t : State} (h : t.untouched = s.untouched) :
    (t.params = s.params ∧ t.ctrlIE = s.ctrlIE ∧ t.cmd = s.cmd ∧ t.frameLen = s.frameLen ∧
      t.argStart = s.argStart ∧ t.argLen = s.argLen ∧ t.argSkip = s.argSkip ∧
      t.status.cmdOvr = s.status.cmdOvr ∧ t.status.wrIgn = s.status.wrIgn) ∧
    (t.buffer = s.buffer ∧ t.inputs = s.inputs ∧ t.turns = s.turns ∧ t.readData = s.readData ∧
      t.powerOns = s.powerOns) := by
  have field {α : Type} (f : State → α) : f t.untouched = f s.untouched := congrArg f h
  exact ⟨⟨field State.params, field State.ctrlIE, field State.cmd, field State.frameLen, field State.argStart,
      field State.argLen, field State.argSkip, field (·.status.cmdOvr), field (·.status.wrIgn)⟩,
    field State.buffer, field State.inputs, field State.turns, field State.readData, field State.powerOns⟩

theorem State.octet_congr {s t : State} (buffer : t.buffer = s.buffer) (powerOns : t.powerOns = s.powerOns) (i : Nat) :
    t.octet i = s.octet i := by
  rw [State.octet, State.octet, buffer, powerOns]

/-- Settles O29: every state of `CommandEnd` keeps the untouched part and the registers the command is no writer of, and
so does the recording. -/
theorem commandsWriteOnlyTheirRegisters : Obligations.CommandsWriteOnlyTheirRegisters := by
  unfold Obligations.CommandsWriteOnlyTheirRegisters
  intro i s t h
  obtain ⟨r, e, ends⟩ := exec_ends i s
  obtain rfl : r.complete (encode i) = t := by simpa [e] using h
  obtain ⟨operands, buffer, inputs, turns, readData, powerOns⟩ :=
    State.fields_of_untouched ((r.complete_untouched (encode i)).trans ends.untouched)
  obtain ⟨acc, csumRes, ipCsumCalc, tcpCsumCalc⟩ := ends.sums_writers
  obtain ⟨eth, ip, tcp, ph⟩ := ends.layers_writers
  refine ⟨operands, State.octet_congr buffer powerOns, ⟨inputs, turns, readData, powerOns⟩, ?_⟩
  simp only [r.complete_registers (encode i)]
  exact ⟨acc, csumRes, ends.xRes_kept, ipCsumCalc, tcpCsumCalc, eth, ip, tcp, ph⟩

/-! ### Carrying an invariant over a step -/

/-- An invariant that a completion, a host write and a power-on keep, and that does not see the surroundings, is kept by
every step. -/
theorem step_keeps {P : State → Prop}
    (surroundings : ∀ s inputs turns readData, P s →
      P { s with inputs := inputs, turns := turns, readData := readData })
    (completion : ∀ c s t, P s → completeCommand c s = .next t → P t)
    (write : ∀ s t, P s → HostWrite s t → P t) (powerOn : ∀ s, P s → P s.powerOnReset)
    {s t : State} (hs : P s) (h : step s = .next t) : P t := by
  obtain ⟨c, u, moves, e⟩ | ⟨a, u, moves, e⟩ | e := step_cases s
  · obtain ⟨-, -, rfl⟩ := moves
    exact completion c _ t (surroundings s s.inputs s.turns.tail s.readData hs) (e.symm.trans h)
  · obtain ⟨-, rest, -, rfl⟩ := moves
    have hu := surroundings s rest s.turns.tail s.readData hs
    obtain ⟨_, _, -, -, -, -, w⟩ | ⟨_, _, -, -, -, -, w⟩ | ⟨_, -, d, rfl⟩ | ⟨-, rfl⟩ | ⟨-, rfl⟩ :=
      State.perform_cases (e.symm.trans h)
    · exact write _ t hu w
    · exact write _ t hu w
    · exact surroundings _ _ _ (d :: _) hu
    · obtain ⟨-, e⟩ | ⟨-, e⟩ := State.poll_cases { s with turns := s.turns.tail, inputs := rest }
      · rw [e]; exact surroundings _ _ _ _ hu
      · rw [e]; exact surroundings _ _ _ _ hu
    · exact powerOn _ hu
  · obtain rfl : _ = t := Host.Outcome.next.inj (e.symm.trans h)
    exact surroundings s s.inputs s.turns.tail s.readData hs

/-! ### The busy protocol (R59) -/

theorem State.Protocol.of_completion {s : State} (h : s.Protocol) {r : Result} (c : Word)
    (kept : (r.complete c).untouched = s.untouched) : (r.complete c).Protocol := by
  obtain ⟨⟨params, -⟩, buffer, -⟩ := State.fields_of_untouched kept
  have recorded : (r.complete c).status.busy = false ∧ (r.complete c).pending = none ∧ (r.complete c).stage = none ∧
      (r.complete c).status.errCode.toNat ≤ 9 := by
    cases r with
    | done u => exact ⟨rfl, rfl, rfl, by simp⟩
    | failed e u => exact ⟨rfl, rfl, rfl, e.code_le⟩
  obtain ⟨idle, discarded, stageNone, errCode⟩ := recorded
  exact {
    params := by rw [params]; exact h.params
    bufferWf := by rw [buffer]; exact h.bufferWf
    bufferBelow := by rw [buffer, params]; exact h.bufferBelow
    busyPending := by simp [idle, discarded]
    pendingCmd := by simp [discarded]
    busyNotDone := by simp [idle]
    stageNone
    errCode }

/-- A reset meets the protocol when the buffer has its form. -/
theorem State.Protocol.of_reset {s : State} (params : s.params.wf = true) (bufferWf : s.buffer.wf = true)
    (bufferBelow : s.buffer.below s.params.frameBytes = true) (status : s.status = Status.reset)
    (pending : s.pending = none) (stage : s.stage = none) : s.Protocol where
  params := params
  bufferWf := bufferWf
  bufferBelow := bufferBelow
  busyPending := by rw [status, pending]; rfl
  pendingCmd := by simp [pending]
  busyNotDone := by simp [status, Status.reset]
  stageNone := stage
  errCode := by rw [status]; decide

theorem State.Protocol.of_write {s t : State} (h : s.Protocol) (w : HostWrite s t) : t.Protocol := by
  cases w with
  | softReset => exact .of_reset h.params h.bufferWf h.bufferBelow rfl rfl rfl
  | accept c idle =>
    exact ⟨h.params, h.bufferWf, h.bufferBelow, rfl, fun _ e => Option.some.inj e, fun _ => rfl, h.stageNone, h.errCode⟩
  | status v =>
    refine ⟨h.params, h.bufferWf, h.bufferBelow, h.busyPending, h.pendingCmd, fun busy => ?_, h.stageNone, h.errCode⟩
    have notDone : s.status.done = false := h.busyNotDone busy
    simp [Status.writeOneToClear, notDone]
  | buffer i vs idle hi =>
    exact ⟨h.params, Memory.wf_writeOctets h.bufferWf i vs, Memory.below_writeOctets h.bufferBelow hi, h.busyPending,
      h.pendingCmd, h.busyNotDone, h.stageNone, h.errCode⟩
  | ctrl | cmdOvr | wrIgn | frameLen | argStart | argLen | argSkip | nothing =>
    exact ⟨h.params, h.bufferWf, h.bufferBelow, h.busyPending, h.pendingCmd, h.busyNotDone, h.stageNone, h.errCode⟩

/-- Settles O33: a completion leaves the block idle with the untouched part as it was, and every host write keeps each
clause. -/
theorem stepKeepsTheBusyProtocol : Obligations.StepKeepsTheBusyProtocol := by
  unfold Obligations.StepKeepsTheBusyProtocol
  intro s t hs h
  refine step_keeps (P := State.Protocol) ?_ ?_ (fun _ _ h w => h.of_write w) ?_ hs h
  case refine_1 =>
    intro s _ _ _ h
    exact ⟨h.params, h.bufferWf, h.bufferBelow, h.busyPending, h.pendingCmd, h.busyNotDone, h.stageNone, h.errCode⟩
  case refine_2 =>
    intro c s t h e
    obtain ⟨r, w, rfl, i, ends⟩ := completeCommand_ends e
    exact h.of_completion w ((r.complete_untouched w).trans ends.untouched)
  case refine_3 =>
    intro s h
    exact .of_reset h.params rfl rfl rfl rfl rfl

/-! ### What the valid bits speak of (R60, R61) -/

/-- STATUS with the bits of R60 alone, every other at its reset value. -/
def Status.results (st : Status) : Status :=
  { st with busy := false, done := false, err := false, errCode := 0, cmdOvr := false, wrIgn := false }

/-- The part of the state that the valid bits speak of: those bits, the frame, and the decoded registers; every other
field at its reset value. -/
def State.results (s : State) : State :=
  { State.powerOn s.params with
    status := s.status.results
    frameLen := s.frameLen
    ipCsumCalc := s.ipCsumCalc
    tcpCsumCalc := s.tcpCsumCalc
    eth := s.eth
    ip := s.ip
    tcp := s.tcp
    ph := s.ph
    buffer := s.buffer
    powerOns := s.powerOns }

theorem Result.complete_results (r : Result) (c : Word) : (r.complete c).results = r.state.results := by
  cases r <;> rfl

/-- An invariant of the valid bits: it sees only what they speak of, holds where none is 1, and is kept by clearing an
invalidation set, by a stage's commit, and by FRAME_V after DECODE. -/
structure ResultInvariant (P : State → Prop) : Prop where
  congr : ∀ {s t}, t.results = s.results → P s → P t
  none : ∀ {s}, s.status.results = Status.reset → P s
  invalidate : ∀ s st, P s → P (s.invalidate st)
  commit : ∀ s st t, P s → StageCommit s st t → P t
  frameV : ∀ s, P s → s.status.ipCkV = true → s.status.tcpCkV = true →
    P (s.withStatus { s.status with frameV := true })

section
variable {P : State → Prop} (inv : ResultInvariant P)
include inv

theorem ResultInvariant.of_commandEnd {s t : State} {i : Instr} (h : CommandEnd s i t) (hs : P s) : P t := by
  have stages {r : Result} (len : s.frameLen.toNat ≤ s.params.frameBytes)
      (run : runStages Stage.order (s.invalidate .decEth) = r) : P r.state :=
    runStages_keeps inv.invalidate inv.commit (fun _ _ => inv.congr rfl) run len (inv.invalidate s .decEth hs)
  cases h with
  | unchanged => exact hs
  | xRes | acc | csumRes => exact inv.congr (s := s) rfl hs
  | invalidated st => exact inv.invalidate s st hs
  | committed commit => exact inv.commit s _ t hs commit
  | decodeFailed len run => exact stages len run
  | decodeDone len run =>
    obtain ⟨ipCkV, tcpCkV⟩ := runStages_order_done run
    exact inv.frameV _ (stages len run) ipCkV tcpCkV

theorem ResultInvariant.of_write {s t : State} (h : HostWrite s t) (hs : P s) : P t := by
  cases h with
  | softReset | frameLen | buffer => exact inv.none rfl
  | ctrl | accept | cmdOvr | wrIgn | status | argStart | argLen | argSkip | nothing => exact inv.congr (s := s) rfl hs

/-- Every step keeps an invariant of the valid bits. -/
theorem ResultInvariant.step {s t : State} (hs : P s) (h : step s = .next t) : P t := by
  refine step_keeps (P := P) (fun _ _ _ _ => inv.congr rfl) ?_ (fun _ _ hs w => inv.of_write w hs)
    (fun _ _ => inv.none rfl) hs h
  intro c s t hs e
  obtain ⟨r, w, rfl, i, ends⟩ := completeCommand_ends e
  exact inv.congr (r.complete_results w) (inv.of_commandEnd ends hs)

end

theorem Status.not_valid_of_results {st : Status} (h : st.results = Status.reset) :
    st.ethV = false ∧ st.ipV = false ∧ st.tcpV = false ∧ st.phV = false ∧ st.ipCkV = false ∧ st.tcpCkV = false ∧
    st.ipOk = false ∧ st.tcpOk = false ∧ st.frameV = false :=
  ⟨congrArg Status.ethV h, congrArg Status.ipV h, congrArg Status.tcpV h, congrArg Status.phV h,
    congrArg Status.ipCkV h, congrArg Status.tcpCkV h, congrArg Status.ipOk h, congrArg Status.tcpOk h,
    congrArg Status.frameV h⟩

/-! ### The dependencies of the valid bits (R62) -/

/-- The chain sees the part of `State.results` alone. -/
theorem State.ValidChain.results_iff (s : State) : s.results.ValidChain ↔ s.ValidChain :=
  ⟨fun h => ⟨h.ip, h.tcp, h.ph, h.ipCk, h.tcpCk, h.ipOk, h.tcpOk, h.frame, h.frameLen⟩,
    fun h => ⟨h.ip, h.tcp, h.ph, h.ipCk, h.tcpCk, h.ipOk, h.tcpOk, h.frame, h.frameLen⟩⟩

theorem State.ValidChain.of_none {s : State} (h : s.status.results = Status.reset) : s.ValidChain := by
  obtain ⟨ethV, ipV, tcpV, phV, ipCkV, tcpCkV, ipOk, tcpOk, frameV⟩ := Status.not_valid_of_results h
  constructor <;> simp [*]

/-- An invalidation set holds with each bit all bits that depend on it. -/
theorem State.ValidChain.invalidate {s : State} (h : s.ValidChain) (st : Stage) : (s.invalidate st).ValidChain := by
  cases st
  case decEth => exact .of_none rfl
  case decIp => exact ⟨nofun, nofun, nofun, nofun, nofun, nofun, nofun, nofun, h.frameLen⟩
  case decTcp => exact ⟨h.ip, nofun, nofun, h.ipCk, nofun, h.ipOk, nofun, nofun, h.frameLen⟩
  case phBuild => exact ⟨h.ip, h.tcp, nofun, h.ipCk, nofun, h.ipOk, nofun, nofun, h.frameLen⟩
  case chkIp => exact ⟨h.ip, h.tcp, h.ph, nofun, h.tcpCk, nofun, h.tcpOk, nofun, h.frameLen⟩
  case chkTcp => exact ⟨h.ip, h.tcp, h.ph, h.ipCk, nofun, h.ipOk, nofun, nofun, h.frameLen⟩

/-- A commit sets a bit whose dependency it has checked. -/
theorem State.ValidChain.commit {s t : State} {st : Stage} (h : s.ValidChain) (c : StageCommit s st t) :
    t.ValidChain := by
  cases c
  case decEth accepts => exact ⟨nofun, nofun, nofun, nofun, nofun, nofun, nofun, nofun, fun _ => accepts.1⟩
  case decIp ethV accepts => exact ⟨fun _ => ethV, nofun, nofun, nofun, nofun, nofun, nofun, nofun, h.frameLen⟩
  case decTcp ipV accepts => exact ⟨h.ip, fun _ => ipV, nofun, h.ipCk, nofun, h.ipOk, nofun, nofun, h.frameLen⟩
  case phBuild tcpV => exact ⟨h.ip, h.tcp, fun _ => tcpV, h.ipCk, nofun, h.ipOk, nofun, nofun, h.frameLen⟩
  case chkIp ipV => exact ⟨h.ip, h.tcp, h.ph, fun _ => ipV, h.tcpCk, fun _ => rfl, h.tcpOk, nofun, h.frameLen⟩
  case chkTcp phV => exact ⟨h.ip, h.tcp, h.ph, h.ipCk, fun _ => phV, h.ipOk, fun _ => rfl, nofun, h.frameLen⟩

/-- Both checks valid make every other bit valid, so FRAME_V may be 1. -/
theorem State.ValidChain.frameV {s : State} (h : s.ValidChain) (ipCkV : s.status.ipCkV = true)
    (tcpCkV : s.status.tcpCkV = true) : (s.withStatus { s.status with frameV := true }).ValidChain := by
  have phV := h.tcpCk tcpCkV
  have tcpV := h.ph phV
  have ipV := h.tcp tcpV
  have ethV := h.ip ipV
  exact ⟨h.ip, h.tcp, h.ph, h.ipCk, h.tcpCk, h.ipOk, h.tcpOk, fun _ => ⟨ethV, ipV, tcpV, phV, ipCkV, tcpCkV⟩,
    h.frameLen⟩

theorem State.ValidChain.resultInvariant : ResultInvariant State.ValidChain where
  congr e hs := (results_iff _).mp (e ▸ (results_iff _).mpr hs)
  none := .of_none
  invalidate _ st hs := hs.invalidate st
  commit _ _ _ hs c := hs.commit c
  frameV _ hs := hs.frameV

/-- Settles O34: each invalidation set is closed under the dependencies, and each commit checks its own. -/
theorem stepKeepsTheValidChain : Obligations.StepKeepsTheValidChain := by
  unfold Obligations.StepKeepsTheValidChain
  exact fun _ _ => State.ValidChain.resultInvariant.step

/-! ### A valid bit describes the frame in the buffer (R61) -/

/-- Currency sees the part of `State.results` alone. -/
theorem State.Current.results_iff (s : State) : s.results.Current ↔ s.Current :=
  ⟨fun h => ⟨h.eth, h.ip, h.tcp, h.ph, h.ipCk, h.tcpCk⟩, fun h => ⟨h.eth, h.ip, h.tcp, h.ph, h.ipCk, h.tcpCk⟩⟩

theorem State.Current.of_none {s : State} (h : s.status.results = Status.reset) : s.Current := by
  obtain ⟨ethV, ipV, tcpV, phV, ipCkV, tcpCkV, -⟩ := Status.not_valid_of_results h
  constructor <;> simp [*]

theorem State.Current.invalidate {s : State} (h : s.Current) (st : Stage) : (s.invalidate st).Current := by
  cases st
  case decEth => exact .of_none rfl
  case decIp => exact ⟨h.eth, nofun, nofun, nofun, nofun, nofun⟩
  case decTcp => exact ⟨h.eth, h.ip, nofun, nofun, h.ipCk, nofun⟩
  case phBuild => exact ⟨h.eth, h.ip, h.tcp, nofun, h.ipCk, nofun⟩
  case chkIp => exact ⟨h.eth, h.ip, h.tcp, h.ph, nofun, h.tcpCk⟩
  case chkTcp => exact ⟨h.eth, h.ip, h.tcp, h.ph, h.ipCk, nofun⟩

/-- A commit writes the registers of its own bit from the frame, and clears every bit whose registers were made from the
ones it writes. -/
theorem State.Current.commit {s t : State} {st : Stage} (h : s.Current) (c : StageCommit s st t) : t.Current := by
  cases c
  case decEth accepts => exact ⟨fun _ => ⟨accepts, rfl⟩, nofun, nofun, nofun, nofun, nofun⟩
  case decIp ethV accepts => exact ⟨h.eth, fun _ => ⟨accepts, rfl⟩, nofun, nofun, nofun, nofun⟩
  case decTcp ipV accepts => exact ⟨h.eth, h.ip, fun _ => ⟨accepts, rfl⟩, nofun, h.ipCk, nofun⟩
  case phBuild tcpV => exact ⟨h.eth, h.ip, h.tcp, fun _ => rfl, h.ipCk, nofun⟩
  case chkIp ipV => exact ⟨h.eth, h.ip, h.tcp, h.ph, fun _ => ⟨rfl, rfl⟩, h.tcpCk⟩
  case chkTcp phV => exact ⟨h.eth, h.ip, h.tcp, h.ph, h.ipCk, fun _ => ⟨rfl, rfl⟩⟩

theorem State.Current.resultInvariant : ResultInvariant State.Current where
  congr e hs := (results_iff _).mp (e ▸ (results_iff _).mpr hs)
  none := .of_none
  invalidate _ st hs := hs.invalidate st
  commit _ _ _ hs c := hs.commit c
  frameV _ h _ _ := ⟨h.eth, h.ip, h.tcp, h.ph, h.ipCk, h.tcpCk⟩

/-- Settles O35: a commit writes its registers from the frame, and a write to the frame leaves no bit valid. -/
theorem stepKeepsValidBitsCurrent : Obligations.StepKeepsValidBitsCurrent := by
  unfold Obligations.StepKeepsValidBitsCurrent
  exact fun _ _ => State.Current.resultInvariant.step

/-! ### Every reachable state (R59, R61, R62) -/

/-- What holds at the start and is kept by every step holds after any number of steps. -/
theorem run_keeps {P : State → Prop} (keeps : ∀ s t, P s → step s = .next t → P t) (k : Nat) {s t : State} (hs : P s)
    (h : Host.Core.run Sys2Proof.core k s = .next t) : P t := by
  induction k generalizing s with
  | zero => exact Host.Outcome.next.inj h ▸ hs
  | succ k ih =>
    cases e : step s with
    | next u => exact ih (keeps s u hs e) (by simpa [Host.Core.run, Sys2Proof.core, e] using h)
    | fault r => simp [Host.Core.run, Sys2Proof.core, e] at h
    | refused r => simp [Host.Core.run, Sys2Proof.core, e] at h

theorem State.Sound.step {s t : State} (hs : s.Sound) (h : step s = .next t) : t.Sound where
  protocol := stepKeepsTheBusyProtocol s t hs.protocol h
  chain := stepKeepsTheValidChain s t hs.chain h
  current := stepKeepsValidBitsCurrent s t hs.current h

theorem State.Sound.powerOn {p : Config.Params} (h : p.wf = true) (inputs : List Input) (turns : List Agent) :
    ({ State.powerOn p with inputs := inputs, turns := turns } : State).Sound where
  protocol := .of_reset h rfl rfl rfl rfl rfl
  chain := .of_none rfl
  current := .of_none rfl

/-- Settles O36: power-on is sound and every step keeps soundness. -/
theorem everyReachableStateIsSound : Obligations.EveryReachableStateIsSound := by
  unfold Obligations.EveryReachableStateIsSound
  intro p accesses order k t wf h
  exact run_keeps (P := State.Sound) (fun _ _ hs => hs.step) k (.powerOn wf accesses order) h

/-- Settles O37: where TCP_V is 1 the registers are the fields of R183 to R193, which the checks of DEC.TCP keep inside
FRAME_LEN, so no sum wraps. -/
theorem boundaryRegistersFitTogether : Obligations.BoundaryRegistersFitTogether := by
  unfold Obligations.BoundaryRegistersFitTogether
  intro s sound tcpV
  obtain ⟨⟨-, inFrame, -, -, hlenFits⟩, fields⟩ := sound.current.tcp tcpV
  have hlen := s.tcpHlenAt_lt s.ip.payOff.toNat
  have frame := s.frameLen.isLt
  rw [fields]
  simp only [State.tcpFields, BitVec.toNat_ofNat, BitVec.ofNat_toNat, BitVec.setWidth_eq, State.segmentLen, true_and]
  omega

end Sys2Proof.Machine
end

section
/-! The family `10_state.md`, the host's side: the register map (R33), STATUS (R38), the resets (R341 to R343) and the
host's writes (R36 to R48, R349). -/

namespace Sys2Proof.Machine

/-! ### Bits of a word -/

theorem getLsbD_eq_decide (v : Word) (k : Nat) : v.getLsbD k = decide (v.toNat / 2 ^ k % 2 = 1) := by
  rw [BitVec.getLsbD, Nat.testBit_eq_decide_div_mod_eq]

theorem not_getLsbD_eq_decide (v : Word) (k : Nat) : (!v.getLsbD k) = decide (v.toNat / 2 ^ k % 2 = 0) := by
  rw [getLsbD_eq_decide, ← decide_not, decide_eq_decide]
  omega

/-! ### STATUS as a number (R38) -/

/-- A field of `width` bits or'ed into a word above all of its bits adds its value there. -/
theorem toNat_or_above {w field : Word} {bit width n : Nat} (low : w.toNat < 2 ^ bit)
    (value : field.toNat = 2 ^ bit * n) (fits : n < 2 ^ width) :
    (w ||| field).toNat = w.toNat + 2 ^ bit * n ∧ (w ||| field).toNat < 2 ^ (bit + width) := by
  have sum : (w ||| field).toNat = w.toNat + 2 ^ bit * n := by
    rw [BitVec.toNat_or, value, Nat.lor_comm, ← Nat.two_pow_add_eq_or_of_lt low, Nat.add_comm]
  refine ⟨sum, ?_⟩
  calc (w ||| field).toNat = w.toNat + 2 ^ bit * n := sum
    _ < 2 ^ bit * (n + 1) := by rw [Nat.mul_succ]; omega
    _ ≤ 2 ^ bit * 2 ^ width := Nat.mul_le_mul_left _ fits
    _ = 2 ^ (bit + width) := (pow_add 2 bit width).symm

theorem flagAt_toNat {bit : Nat} (h : bit < 32) (b : Bool) : (flagAt bit b).toNat = 2 ^ bit * b.toNat := by
  cases b
  · simp [flagAt]
  · have lt : 2 ^ bit < 2 ^ 32 := Nat.pow_lt_pow_right (by decide) h
    rw [flagAt, if_pos rfl, BitVec.toNat_shiftLeft, BitVec.toNat_ofNat, Nat.shiftLeft_eq, Bool.toNat_true, Nat.mul_one,
      Nat.one_mod_two_pow (by decide), Nat.one_mul, Nat.mod_eq_of_lt lt]

theorem toNat_or_flagAt {w : Word} {bit : Nat} (low : w.toNat < 2 ^ bit) (h : bit < 32) (b : Bool) :
    (w ||| flagAt bit b).toNat = w.toNat + 2 ^ bit * b.toNat ∧ (w ||| flagAt bit b).toNat < 2 ^ (bit + 1) :=
  toNat_or_above low (flagAt_toNat h b) (by cases b <;> decide)

/-- Settles O51: each field is or'ed in above the ones before it, so STATUS is their sum. -/
theorem statusBitsReadTheirFields : Obligations.StatusBitsReadTheirFields := by
  unfold Obligations.StatusBitsReadTheirFields
  intro s
  have errCode : (s.status.errCode.setWidth 32 <<< 4).toNat = 2 ^ 4 * s.status.errCode.toNat := by
    have := s.status.errCode.isLt
    simp only [BitVec.toNat_shiftLeft, BitVec.toNat_setWidth, Nat.shiftLeft_eq]
    omega
  -- `e<bit>` is the word up to the field at that bit, `b<bit>` its bound.
  have busy : (flagAt 0 s.status.busy).toNat = s.status.busy.toNat := by simp [flagAt_toNat]
  have b0 : (flagAt 0 s.status.busy).toNat < 2 ^ 1 := by rw [busy]; cases s.status.busy <;> decide
  obtain ⟨e1, b1⟩ := toNat_or_flagAt b0 (by decide) s.status.done
  obtain ⟨e2, b2⟩ := toNat_or_flagAt b1 (by decide) s.status.err
  obtain ⟨e4, b4⟩ := toNat_or_above (bit := 4) (b2.trans (by decide)) errCode s.status.errCode.isLt
  obtain ⟨e8, b8⟩ := toNat_or_flagAt b4 (by decide) s.status.ethV
  obtain ⟨e9, b9⟩ := toNat_or_flagAt b8 (by decide) s.status.ipV
  obtain ⟨e10, b10⟩ := toNat_or_flagAt b9 (by decide) s.status.tcpV
  obtain ⟨e11, b11⟩ := toNat_or_flagAt b10 (by decide) s.status.phV
  obtain ⟨e12, b12⟩ := toNat_or_flagAt b11 (by decide) s.status.ipCkV
  obtain ⟨e13, b13⟩ := toNat_or_flagAt b12 (by decide) s.status.tcpCkV
  obtain ⟨e14, b14⟩ := toNat_or_flagAt b13 (by decide) s.status.ipOk
  obtain ⟨e15, b15⟩ := toNat_or_flagAt b14 (by decide) s.status.tcpOk
  obtain ⟨e16, b16⟩ := toNat_or_flagAt b15 (by decide) s.status.frameV
  obtain ⟨e17, b17⟩ := toNat_or_flagAt b16 (by decide) s.status.cmdOvr
  obtain ⟨e18, -⟩ := toNat_or_flagAt b17 (by decide) s.status.wrIgn
  show s.status.toWord.toNat = _
  rw [Status.toWord, e18, e17, e16, e15, e14, e13, e12, e11, e10, e9, e8, e4, e2, e1, busy]
  rfl

/-! ### The register map (R33) -/

theorem State.read32_offset (s : State) (r : Reg) : s.read32 r.offset = s.readReg r := by
  rw [State.read32, if_pos r.offset_lt, Reg.at?_offset]

theorem State.read32_reserved (s : State) {offset : Nat} (lt : offset < 0x1000) (h : ∀ r : Reg, offset ≠ r.offset) :
    s.read32 offset = 0 := by
  have region : offset < Config.bufferBase := lt
  rw [State.read32, if_pos region, Reg.at?_eq_none h]

theorem Reg.offset_injective {r q : Reg} (h : r.offset = q.offset) : r = q := by
  have := Reg.at?_offset r
  rw [h, Reg.at?_offset] at this
  exact (Option.some.inj this).symm

theorem Reg.offset_le (r : Reg) : r.offset ≤ 0x0F4 := by cases r <;> decide

/-- Settles O50: the map finds each register at its offset, so no two share one. -/
theorem registerMapIsUnambiguous : Obligations.RegisterMapIsUnambiguous := by
  unfold Obligations.RegisterMapIsUnambiguous
  exact ⟨fun _ _ => Reg.offset_injective, fun s r =>
    ⟨r.offset_mod, r.offset_lt, s.read32_offset r, s.read32_offset .id, s.read32_offset .param⟩⟩

/-- Settles O55: row by row what a read at a register's offset gives, and no register lies at the reserved offsets. -/
theorem registerRowsReadTheirFields : Obligations.RegisterRowsReadTheirFields := by
  unfold Obligations.RegisterRowsReadTheirFields
  intro s
  have row := s.read32_offset
  have ctrl : (s.read32 0x008).toNat = s.ctrlIE.toNat := by
    rw [show s.read32 0x008 = flagAt 0 s.ctrlIE from row .ctrl, flagAt_toNat (by decide), pow_zero, one_mul]
  have gap (offset : Nat) (h : offset = 0x05C ∨ offset = 0x09C) : s.read32 offset = 0 :=
    s.read32_reserved (by omega) fun r => by rcases h with rfl | rfl <;> cases r <;> decide
  have past (offset : Nat) (above : 0x0F8 ≤ offset) (lt : offset < 0x1000) : s.read32 offset = 0 :=
    s.read32_reserved lt fun r => by have := r.offset_le; omega
  exact ⟨row .id, row .param, ctrl, row .cmd, row .status, row .errCmd, row .frameLen, row .argStart, row .argLen,
    row .argSkip, row .acc, row .csumRes, row .xResLo, row .xResHi, row .ipCsumCalc, row .tcpCsumCalc, row .ethDstHi,
    row .ethDstLo, row .ethSrcHi, row .ethSrcLo, row .ethType, row .ethPayOff, row .ethPayLen, row .ipVer, row .ipIhl,
    row .ipHlen, row .ipTos, row .ipTotlen, row .ipId, row .ipFlags, row .ipFragoff, row .ipTtl, row .ipProto,
    row .ipCsum, row .ipSrc, row .ipDst, row .ipPayOff, row .ipPayLen, row .tcpSport, row .tcpDport, row .tcpSeq,
    row .tcpAck, row .tcpDoff, row .tcpHlen, row .tcpFlags, row .tcpWin, row .tcpCsum, row .tcpUrg, row .tcpSegOff,
    row .tcpSegLen, row .tcpPayOff, row .tcpPayLen, row .padOff, row .padLen, row .phW0, row .phW1, row .phW2,
    row .phW3, row .phW4, row .phW5, gap _ (.inl rfl), gap _ (.inr rfl), past⟩

/-! ### The resets (R341 to R343) -/

/-- What each register reads right after power-on is its reset value. -/
theorem State.powerOn_readReg (p : Config.Params) (r : Reg) :
    (State.powerOn p).readReg r = resetWord p r.offset := by
  have status : Status.reset.toWord = 0#32 := by decide
  cases r
  case status => exact status
  all_goals rfl

/-- A state whose registers are those of a power-on reads the reset value at every register offset. -/
theorem State.read32_of_reset {t : State} {p : Config.Params} (h : ∀ r, t.readReg r = (State.powerOn p).readReg r)
    {offset : Nat} (lt : offset < 0x1000) : t.read32 offset = resetWord p offset := by
  by_cases mapped : ∃ r : Reg, offset = r.offset
  · obtain ⟨r, rfl⟩ := mapped
    rw [t.read32_offset, h, State.powerOn_readReg]
  · have unmapped (r : Reg) : offset ≠ r.offset := fun e => mapped ⟨r, e⟩
    have id : offset ≠ 0x000 := unmapped .id
    have param : offset ≠ 0x004 := unmapped .param
    rw [t.read32_reserved lt unmapped, resetWord, if_neg id, if_neg param]
    rfl

theorem State.softReset_readReg (s : State) (r : Reg) : s.softReset.readReg r = (State.powerOn s.params).readReg r := by
  cases r <;> rfl

theorem State.powerOnReset_readReg (s : State) (r : Reg) :
    s.powerOnReset.readReg r = (State.powerOn s.params).readReg r := by
  cases r <;> rfl

/-! ### A host write as a step -/

theorem step_writeReg {s u : State} (r : Reg) {v : Word} (h : s.hostDoes (.w32 r.offset v) u) :
    step s = .next (u.writeReg r v) := by
  rw [step_of_hostDoes h, u.perform_writeReg]

theorem State.writeCtrl_srst (s : State) {v : Word} (h : v.toNat / 2 % 2 = 1) : s.writeCtrl v = s.softReset := by
  rw [State.writeCtrl, if_pos (by rw [getLsbD_eq_decide]; simpa using h)]

/-- Settles O41: a CTRL write with SRST is the soft reset, and the power-on reset is an input; neither looks at BUSY. -/
theorem resetsDiscardThePendingCommand : Obligations.ResetsDiscardThePendingCommand := by
  unfold Obligations.ResetsDiscardThePendingCommand
  intro s u v
  refine ⟨fun h srst => ?_, fun h => ?_⟩
  · obtain ⟨-, params, -, octet, -⟩ := State.hostDoes_same h
    have reset : step s = .next u.softReset := (step_writeReg .ctrl h).trans (congrArg _ (u.writeCtrl_srst srst))
    rw [← params]
    exact ⟨_, reset, fun _ => State.read32_of_reset u.softReset_readReg, rfl, rfl, rfl, octet, rfl, rfl, rfl⟩
  · have reset : step s = .next u.powerOnReset := step_of_hostDoes h
    obtain ⟨-, rest, -, rfl⟩ := h
    exact ⟨_, reset, fun _ => State.read32_of_reset (State.powerOnReset_readReg _), rfl, rfl, rfl, rfl, rfl, rfl, rfl,
      rfl⟩

/-- A CTRL write without SRST writes IE (R36). -/
theorem step_write_ctrl {s u : State} {v : Word} (h : s.hostDoes (.w32 0x008 v) u) (noReset : v.toNat / 2 % 2 = 0) :
    step s = .next { u with ctrlIE := decide (v.toNat % 2 = 1) } := by
  have srst : ¬ v.getLsbD 1 = true := by
    rw [getLsbD_eq_decide, decide_eq_true_eq, pow_one]
    omega
  rw [step_writeReg .ctrl h, State.writeReg, State.writeCtrl, if_neg srst, getLsbD_eq_decide, pow_zero, Nat.div_one]

/-- A STATUS write clears the W1C bits it has 1 for (R38). -/
theorem step_write_status {s u : State} {v : Word} (h : s.hostDoes (.w32 0x010 v) u) :
    step s = .next { u with status := { u.status with
      done := u.status.done && decide (v.toNat / 2 % 2 = 0)
      err := u.status.err && decide (v.toNat / 4 % 2 = 0)
      cmdOvr := u.status.cmdOvr && decide (v.toNat / 2 ^ 17 % 2 = 0)
      wrIgn := u.status.wrIgn && decide (v.toNat / 2 ^ 18 % 2 = 0) } } := by
  rw [step_writeReg .status h, State.writeReg, Status.writeOneToClear]
  simp only [not_getLsbD_eq_decide]
  rfl

theorem State.writeReg_readOnly (s : State) {r : Reg} (v : Word)
    (h : ¬ r.offset ∈ [0x008, 0x00C, 0x010, 0x018, 0x01C, 0x020, 0x024]) : s.writeReg r v = s := by
  cases r
  case ctrl | cmd | status | frameLen | argStart | argLen | argSkip => exact absurd (by decide) h
  all_goals rfl

/-- A write to a read-only register or a reserved offset changes nothing (R32, R33). -/
theorem step_write_readOnly {s u : State} {offset : Nat} {v : Word} (h : s.hostDoes (.w32 offset v) u)
    (aligned : offset % 4 = 0) (lt : offset < 0x1000)
    (readOnly : ¬ offset ∈ [0x008, 0x00C, 0x010, 0x018, 0x01C, 0x020, 0x024]) : step s = .next u := by
  by_cases mapped : ∃ r : Reg, offset = r.offset
  · obtain ⟨r, rfl⟩ := mapped
    rw [step_writeReg r h, u.writeReg_readOnly v readOnly]
  · have unmapped (r : Reg) : offset ≠ r.offset := fun e => mapped ⟨r, e⟩
    have region : offset < Config.bufferBase := lt
    rw [step_of_hostDoes h, State.perform, busAccess_of_admitted (region.trans_le (bufferBase_le_addrBits _))
      (admitted32_register region aligned), State.write32, if_pos region, Reg.at?_eq_none unmapped]

/-- A write to the unmapped region changes nothing (R97; log 7). -/
theorem step_write_unmapped {s u : State} {a : Input} (h : s.hostDoes a u) {offset : Nat}
    (past : 0x1000 + s.params.frameBytes ≤ offset) (lt : offset < 2 ^ addrBits s.params)
    (write : (∃ v, a = .w32 offset v ∧ offset % 4 = 0) ∨ (∃ v, a = .w8 offset v)) : step s = .next u := by
  obtain ⟨-, params, -⟩ := State.hostDoes_same h
  rw [← params] at past lt
  obtain ⟨words, octets⟩ := State.perform_unmapped past lt
  rw [step_of_hostDoes h]
  obtain ⟨v, rfl, aligned⟩ | ⟨v, rfl⟩ := write
  · exact words v aligned
  · exact octets v

theorem State.writeReg_frameLen (s : State) (v : Word) : s.writeReg .frameLen v =
    s.unlessBusy fun s => { s with frameLen := v.setWidth 16, status := s.status.invalidateAll } := rfl

theorem State.writeReg_argStart (s : State) (v : Word) :
    s.writeReg .argStart v = s.unlessBusy fun s => { s with argStart := v } := rfl

theorem State.writeReg_argLen (s : State) (v : Word) :
    s.writeReg .argLen v = s.unlessBusy fun s => { s with argLen := v } := rfl

theorem State.writeReg_argSkip (s : State) (v : Word) :
    s.writeReg .argSkip v = s.unlessBusy fun s => { s with argSkip := v } := rfl

/-- A write of an operand or of the buffer is dropped while BUSY is 1, and sets WR_IGN (R349). -/
theorem step_dropped {s u t : State} {write : State → State} (h : step s = .next t) (e : t = u.unlessBusy write)
    (busy : u.status.busy = true) : step s = .next { u with status := { u.status with wrIgn := true } } := by
  rw [h, e, State.unlessBusy, if_pos busy]
  rfl

theorem step_taken {s u t : State} {write : State → State} (h : step s = .next t) (e : t = u.unlessBusy write)
    (idle : u.status.busy = false) : step s = .next (write u) := by
  rw [h, e, State.unlessBusy, if_neg (by simp [idle])]

theorem step_writeWord {s u : State} {i : Nat} {v : Word} (h : s.hostDoes (.w32 (0x1000 + i) v) u)
    (aligned : i % 4 = 0) (fits : i + 4 ≤ s.params.frameBytes) : step s = .next (u.writeBuffer i (lanesOf v)) := by
  obtain ⟨-, params, -⟩ := State.hostDoes_same h
  rw [step_of_hostDoes h, State.perform_writeWord aligned (by rwa [params])]

theorem step_writeOctet {s u : State} {i : Nat} {v : Octet} (h : s.hostDoes (.w8 (0x1000 + i) v) u)
    (fits : i < s.params.frameBytes) : step s = .next (u.writeBuffer i [v]) := by
  obtain ⟨-, params, -⟩ := State.hostDoes_same h
  rw [step_of_hostDoes h, State.perform_writeOctet (by rwa [params])]

/-- Settles O43: the operands and the buffer go through `unlessBusy`; the other writes do not look at BUSY. -/
theorem writesWhileBusy : Obligations.WritesWhileBusy := by
  unfold Obligations.WritesWhileBusy
  intro s u a h busy
  have busyU : u.status.busy = true := by rw [(State.hostDoes_same h).1, busy]
  refine ⟨?_, ?_, ?_, ?_, fun _ past lt write => step_write_unmapped h past lt write⟩
  · rintro (⟨v, rfl | rfl | rfl | rfl⟩ | ⟨i, v, fits, rfl⟩ | ⟨i, v, aligned, fits, rfl⟩)
    · exact step_dropped (step_writeReg .frameLen h) (u.writeReg_frameLen v) busyU
    · exact step_dropped (step_writeReg .argStart h) (u.writeReg_argStart v) busyU
    · exact step_dropped (step_writeReg .argLen h) (u.writeReg_argLen v) busyU
    · exact step_dropped (step_writeReg .argSkip h) (u.writeReg_argSkip v) busyU
    · exact step_dropped (step_writeOctet h fits) rfl busyU
    · exact step_dropped (step_writeWord h aligned fits) rfl busyU
  · rintro v rfl noReset
    exact step_write_ctrl h noReset
  · rintro v rfl
    exact step_write_status h
  · rintro offset v rfl aligned lt readOnly
    exact step_write_readOnly h aligned lt readOnly

/-- Settles O44: an ARG write goes through `unlessBusy`; the other writes do not look at BUSY. -/
theorem writesWhileIdle : Obligations.WritesWhileIdle := by
  unfold Obligations.WritesWhileIdle
  intro s u a h idle
  have idleU : u.status.busy = false := by rw [(State.hostDoes_same h).1, idle]
  refine ⟨?_, ?_, ?_, ?_, ?_, ?_, fun _ past lt write => step_write_unmapped h past lt write⟩
  · rintro v rfl noReset
    exact step_write_ctrl h noReset
  · rintro v rfl
    exact step_write_status h
  · rintro v rfl
    exact step_taken (step_writeReg .argStart h) (u.writeReg_argStart v) idleU
  · rintro v rfl
    exact step_taken (step_writeReg .argLen h) (u.writeReg_argLen v) idleU
  · rintro v rfl
    exact step_taken (step_writeReg .argSkip h) (u.writeReg_argSkip v) idleU
  · rintro offset v rfl aligned lt readOnly
    exact step_write_readOnly h aligned lt readOnly

/-! ### What a buffer write leaves in the frame (R94, R99) -/

theorem State.octet_written (s : State) (i : Nat) (vs : List Octet) {k : Nat} (h : k < vs.length) :
    ({ s with buffer := s.buffer.writeOctets i vs } : State).octet (i + k) = vs[k] := by
  rw [State.octet, Memory.read_writeOctets, if_pos (by omega), Nat.add_sub_cancel_left, List.getElem?_eq_getElem h,
    Option.getD_some]

theorem State.octet_not_written (s : State) {i j : Nat} {vs : List Octet} (h : j < i ∨ i + vs.length ≤ j) :
    ({ s with buffer := s.buffer.writeOctets i vs } : State).octet j = s.octet j := by
  rw [State.octet, State.octet, Memory.read_writeOctets, if_neg (by omega)]

theorem lanesOf_toNat (v : Word) {k : Nat} (h : k < 4) :
    ((lanesOf v)[k]'h).toNat = v.toNat / 256 ^ k % 256 := by
  interval_cases k <;> simp [lanesOf, BitVec.extractLsb'_toNat, Nat.shiftRight_eq_div_pow]

/-- Settles O45: while BUSY is 0 the write takes place, and the buffer reads the octets on their lanes. -/
theorem inputWritesInvalidateResults : Obligations.InputWritesInvalidateResults := by
  unfold Obligations.InputWritesInvalidateResults
  intro s u v i idle
  have same {a : Input} (h : s.hostDoes a u) : u.status.busy = false ∧ ∀ j, u.octet j = s.octet j := by
    obtain ⟨status, -, -, octet, -⟩ := State.hostDoes_same h
    exact ⟨by rw [status, idle], octet⟩
  refine ⟨fun h => ?_, fun h aligned fits => ?_, fun b h fits => ?_⟩
  · have low : v.setWidth 16 = BitVec.ofNat 16 (v.toNat % 2 ^ 16) := by
      apply BitVec.eq_of_toNat_eq
      simp
    rw [← low]
    exact step_taken (step_writeReg .frameLen h) (u.writeReg_frameLen v) (same h).1
  · obtain ⟨idleU, octet⟩ := same h
    refine ⟨_, step_taken (step_writeWord h aligned fits) rfl idleU, fun k lt => ?_, fun j out => ?_⟩
    · exact (congrArg BitVec.toNat (u.octet_written i (lanesOf v) lt)).trans (lanesOf_toNat v lt)
    · exact (u.octet_not_written out).trans (octet j)
  · obtain ⟨idleU, octet⟩ := same h
    refine ⟨_, step_taken (step_writeOctet h fits) rfl idleU, u.octet_written i [b] Nat.one_pos, fun j ne => ?_⟩
    have out : j < i ∨ i + [b].length ≤ j := by simp only [List.length_singleton]; omega
    exact (u.octet_not_written out).trans (octet j)

end Sys2Proof.Machine
end

section
/-! The family `20_memory.md`, the host's accesses: reads (R94 to R98), accesses that are refused (R96), and what a
pending command reads (R104). -/

namespace Sys2Proof.Machine

/-! ### Which accesses are admitted (R96, R97) -/

theorem bufferBase_eq : Config.bufferBase = 0x1000 := rfl

theorem bufferEnd_eq (p : Config.Params) : bufferEnd p = 0x1000 + p.frameBytes := rfl

theorem admitted8_iff (offset : Nat) : admitted8 offset = true ↔ 0x1000 ≤ offset := by
  rw [admitted8, decide_eq_true_iff, bufferBase_eq]

theorem admitted32_iff (p : Config.Params) (offset : Nat) : admitted32 p offset = true ↔
    offset % 4 = 0 ∧ (offset < 0x1000 ∨ offset + 4 ≤ 0x1000 + p.frameBytes ∨ 0x1000 + p.frameBytes ≤ offset) := by
  simp only [admitted32, Bool.and_eq_true, Bool.or_eq_true, beq_iff_eq, decide_eq_true_eq, or_assoc]
  rfl

/-- Settles O48: none of the three kinds of access is admitted, and `perform` refuses what is not. -/
theorem accessesNotAdmittedAreRefused : Obligations.AccessesNotAdmittedAreRefused := by
  unfold Obligations.AccessesNotAdmittedAreRefused
  intro s u a offset moves lt kind
  obtain ⟨-, params, -⟩ := State.hostDoes_same moves
  rw [← params] at lt kind
  have refused {admitted : Bool} {effect : State} (h : ¬ admitted = true) :
      busAccess u offset admitted effect = .refused (.accessNotAdmitted offset) :=
    busAccess_of_not_admitted lt (Bool.eq_false_iff.mpr h)
  rw [step_of_hostDoes moves]
  obtain ⟨access, register⟩ | access | ⟨access, misplaced⟩ := kind
  · have notAdmitted : ¬ admitted8 offset = true := by rw [admitted8_iff]; omega
    obtain ⟨v, rfl⟩ | rfl := access <;> exact refused notAdmitted
  · have notAdmitted : ¬ false = true := Bool.false_ne_true
    obtain ⟨v, rfl⟩ | rfl := access <;> exact refused notAdmitted
  · have notAdmitted : ¬ admitted32 u.params offset = true := by rw [admitted32_iff]; omega
    obtain ⟨v, rfl⟩ | rfl := access <;> exact refused notAdmitted

/-! ### Reads (R94, R95, R97, R98) -/

/-- Taking the turn and the input does not change what a read returns. -/
theorem State.reads_of_hostDoes {s u : State} {a : Input} (h : s.hostDoes a u) (offset : Nat) :
    u.read32 offset = s.read32 offset ∧ u.read8 offset = s.read8 offset := by
  obtain ⟨-, params, -, octet, readReg⟩ := State.hostDoes_same h
  constructor
  · simp only [State.read32, State.laneWord, params, octet, readReg]
  · simp only [State.read8, params, octet]

theorem step_read32 {s u : State} {offset : Nat} (h : s.hostDoes (.r32 offset) u)
    (admitted : admitted32 s.params offset = true) (lt : offset < 2 ^ addrBits s.params) :
    step s = .next (u.returnData (.word (s.read32 offset))) := by
  obtain ⟨-, params, -⟩ := State.hostDoes_same h
  rw [← params] at admitted lt
  rw [step_of_hostDoes h, State.perform, busAccess_of_admitted lt admitted, (State.reads_of_hostDoes h offset).1]

theorem step_read8 {s u : State} {offset : Nat} (h : s.hostDoes (.r8 offset) u)
    (admitted : admitted8 offset = true) (lt : offset < 2 ^ addrBits s.params) :
    step s = .next (u.returnData (.octet (s.read8 offset))) := by
  obtain ⟨-, params, -⟩ := State.hostDoes_same h
  rw [← params] at lt
  rw [step_of_hostDoes h, State.perform, busAccess_of_admitted lt admitted, (State.reads_of_hostDoes h offset).2]

theorem toNat_append_eq_add {m n : Nat} (high : BitVec m) (low : BitVec n) :
    (high ++ low).toNat = high.toNat * 2 ^ n + low.toNat := by
  rw [BitVec.toNat_append, ← Nat.shiftLeft_add_eq_or_of_lt low.isLt, Nat.shiftLeft_eq]

/-- The word on the bus is the one whose digits in base 256 are the octets on their lanes (R94). -/
theorem State.eq_laneWord {s : State} {i : Nat} {d : Word}
    (lanes : ∀ k, k < 4 → d.toNat / 256 ^ k % 256 = (s.octet (i + k)).toNat) : d = s.laneWord i := by
  have lane0 : d.toNat % 256 = (s.octet i).toNat := by simpa using lanes 0 (by decide)
  have lane1 := lanes 1 (by decide)
  have lane2 := lanes 2 (by decide)
  have lane3 := lanes 3 (by decide)
  have word := d.isLt
  apply BitVec.eq_of_toNat_eq
  rw [State.laneWord, toNat_append_eq_add, toNat_append_eq_add, toNat_append_eq_add]
  omega

theorem State.read32_buffer (s : State) {offset : Nat} (first : 0x1000 ≤ offset)
    (lt : offset < 0x1000 + s.params.frameBytes) : s.read32 offset = s.laneWord (offset - 0x1000) := by
  rw [State.read32, bufferBase_eq, bufferEnd_eq, if_neg (Nat.not_lt.mpr first), if_pos lt]

theorem State.read32_unmapped (s : State) {offset : Nat} (past : 0x1000 + s.params.frameBytes ≤ offset) :
    s.read32 offset = 0 := by
  rw [State.read32, bufferBase_eq, bufferEnd_eq, if_neg (by omega), if_neg (Nat.not_lt.mpr past)]

theorem State.read8_of_le (s : State) {offset : Nat} (first : 0x1000 ≤ offset) : s.read8 offset =
    if offset < 0x1000 + s.params.frameBytes then s.octet (offset - 0x1000) else 0#8 := by
  simp only [State.read8, bufferBase_eq, bufferEnd_eq, first, true_and, BitVec.ofNat_eq_ofNat]

/-- Settles O46: in each region the word is what `read32` gives at that offset, and the octet what `read8` gives. -/
theorem readsReturnDataAndChangeNothing : Obligations.ReadsReturnDataAndChangeNothing := by
  unfold Obligations.ReadsReturnDataAndChangeNothing
  intro s u offset d b
  refine ⟨fun moves aligned lt data => ?_, fun moves first lt data => ?_⟩
  · have returned (region : offset < 0x1000 ∨ offset + 4 ≤ 0x1000 + s.params.frameBytes ∨
        0x1000 + s.params.frameBytes ≤ offset) (word : d = s.read32 offset) :
        step s = .next (u.returnData (.word d)) := by
      rw [word]
      exact step_read32 moves ((admitted32_iff _ _).mpr ⟨aligned, region⟩) lt
    obtain ⟨register, rfl⟩ | ⟨r, rfl, rfl⟩ | ⟨register, reserved, rfl⟩ | ⟨first, fits, lanes⟩ | ⟨past, rfl⟩ := data
    · exact returned (.inl register) rfl
    · exact returned (.inl r.offset_lt) (s.read32_offset r).symm
    · exact returned (.inl register) (s.read32_reserved register reserved).symm
    · exact returned (.inr (.inl fits))
        ((State.eq_laneWord lanes).trans (s.read32_buffer first (by omega)).symm)
    · exact returned (.inr (.inr past)) (s.read32_unmapped past).symm
  · rw [data, ← s.read8_of_le first]
    exact step_read8 moves ((admitted8_iff offset).mpr first) lt

/-! ### What a pending command reads (R104, R349) -/

/-- The part of the state that no access but a reset changes while a command is pending: all but IE, the event bits
DONE, ERR, CMD_OVR and WR_IGN, and the surroundings, which stand at their reset values. -/
def State.held (s : State) : State :=
  { s with
    ctrlIE := false
    status := { s.status with done := false, err := false, cmdOvr := false, wrIgn := false }
    inputs := []
    turns := []
    readData := [] }

theorem State.hostDoes_held {s u : State} {a : Input} (h : s.hostDoes a u) : u.held = s.held := by
  obtain ⟨-, rest, -, rfl⟩ := h
  rfl

theorem State.writeCtrl_noReset (s : State) {v : Word} (h : v.toNat / 2 % 2 = 0) :
    s.writeCtrl v = { s with ctrlIE := v.getLsbD 0 } := by
  have srst : v.getLsbD 1 = false := by
    rw [getLsbD_eq_decide, decide_eq_false_iff_not, pow_one]
    omega
  rw [State.writeCtrl, if_neg (Bool.eq_false_iff.mp srst)]

theorem State.poll_held (s : State) : s.poll.held = s.held := by
  obtain ⟨-, e⟩ | ⟨-, e⟩ := s.poll_cases <;> rw [e] <;> rfl

section
variable {s : State} (busy : s.status.busy = true)
include busy

theorem State.unlessBusy_held (write : State → State) : (s.unlessBusy write).held = s.held := by
  rw [State.unlessBusy, if_pos busy]
  rfl

theorem State.writeReg_held {r : Reg} {v : Word} (noReset : r = .ctrl → v.toNat / 2 % 2 = 0) :
    (s.writeReg r v).held = s.held := by
  cases r
  case ctrl =>
    rw [State.writeReg, s.writeCtrl_noReset (noReset rfl)]
    rfl
  case cmd =>
    rw [State.writeReg, State.writeCmd, if_pos busy]
    rfl
  case frameLen | argStart | argLen | argSkip => exact State.unlessBusy_held busy _
  all_goals rfl

theorem State.write32_held {offset : Nat} {v : Word} (noReset : offset = 0x008 → v.toNat / 2 % 2 = 0) :
    (s.write32 offset v).held = s.held := by
  rw [State.write32]
  split
  · cases found : Reg.at? offset with
    | none => rfl
    | some r =>
      refine State.writeReg_held busy fun ctrl => noReset ?_
      rw [← Reg.offset_of_at? found, ctrl]
      rfl
  · split
    · exact State.unlessBusy_held busy _
    · rfl

theorem State.write8_held (offset : Nat) (v : Octet) : (s.write8 offset v).held = s.held := by
  rw [State.write8]
  split
  · exact State.unlessBusy_held busy _
  · rfl

/-- While BUSY is 1, an input that is no reset keeps the held part. -/
theorem State.perform_held {t : State} {a : Input} (noPowerOn : a ≠ .powerOnReset)
    (noReset : ∀ v : Word, a = .w32 0x008 v → v.toNat / 2 % 2 = 0) (h : s.perform a = .next t) : t.held = s.held := by
  obtain ⟨offset, v, rfl, -, -, rfl, -⟩ | ⟨offset, v, rfl, -, -, rfl, -⟩ | ⟨_, -, d, rfl⟩ | ⟨-, rfl⟩ | ⟨powerOn, -⟩ :=
    State.perform_cases h
  · exact State.write32_held busy fun ctrl => noReset v (ctrl ▸ rfl)
  · exact State.write8_held busy offset v
  · rfl
  · exact s.poll_held
  · exact absurd powerOn noPowerOn

end

/-- Settles O53: BUSY is 1 while a command is pending, so the access keeps the held part, which has every field that the
statement names. -/
theorem pendingCommandKeepsItsInputs : Obligations.PendingCommandKeepsItsInputs := by
  unfold Obligations.PendingCommandKeepsItsInputs
  intro s u t a c protocol pending moves noPowerOn noReset h
  have busy : s.status.busy = true := by rw [protocol.busyPending, pending]; rfl
  have busyU : u.status.busy = true := by rw [(State.hostDoes_same moves).1, busy]
  have performed : u.perform a = .next t := (step_of_hostDoes moves).symm.trans h
  have held : t.held = s.held :=
    (State.perform_held busyU noPowerOn noReset performed).trans (State.hostDoes_held moves)
  have field {α : Type} (f : State → α) : f t.held = f s.held := congrArg f held
  exact ⟨(field State.pending).trans pending, (field (·.status.busy)).trans busy, field State.cmd, field State.params,
    field State.frameLen, field State.argStart, field State.argLen, field State.argSkip,
    State.octet_congr (field State.buffer) (field State.powerOns), field State.acc, field State.csumRes,
    field State.xRes, field State.eth, field State.ip, field State.tcp, field State.ph, field State.ipCsumCalc,
    field State.tcpCsumCalc, field fun r => { r.status with
      done := t.status.done, err := t.status.err, cmdOvr := t.status.cmdOvr, wrIgn := t.status.wrIgn }⟩

end Sys2Proof.Machine
end

section
/-! The family `20_memory.md`, the commands' side: a view of the frame, and then each command, depends on the octets
below FRAME_LEN alone (R92, R225). -/

namespace Sys2Proof.Machine

/-! ### Views of the same frame (R11, R12) -/

section
variable {s t : State} (h : s.sameFrame t)
include h

theorem State.sameFrame.frameLen_eq : s.frameLen = t.frameLen := h.2.1

theorem State.sameFrame.octet_eq {i : Nat} (inside : i < s.frameLen.toNat) : s.octet i = t.octet i := h.2.2 i inside

theorem State.sameFrame.be_eq {i n : Nat} (inside : i + n ≤ s.frameLen.toNat) : s.be i n = t.be i n :=
  State.be_congr fun _ _ lt => h.octet_eq (by omega)

theorem State.sameFrame.be16_eq {i : Nat} (inside : i + 2 ≤ s.frameLen.toNat) : s.be16 i = t.be16 i :=
  congrArg (BitVec.ofNat 16) (h.be_eq inside)

theorem State.sameFrame.be32_eq {i : Nat} (inside : i + 4 ≤ s.frameLen.toNat) : s.be32 i = t.be32 i :=
  congrArg (BitVec.ofNat 32) (h.be_eq inside)

theorem State.sameFrame.nbe_eq {i n : Nat} (inside : i + n ≤ 2 * s.frameLen.toNat) : s.nbe i n = t.nbe i n :=
  State.nbe_congr fun _ _ lt => h.octet_eq (by omega)

theorem State.sameFrame.bbe_eq {b n : Nat} (inside : b + n ≤ 8 * s.frameLen.toNat) : s.bbe b n = t.bbe b n :=
  State.bbe_congr fun _ _ lt => h.octet_eq (by omega)

theorem State.sameFrame.ihlAt_eq {p : Nat} (inside : p < s.frameLen.toNat) : s.ihlAt p = t.ihlAt p := by
  rw [State.ihlAt, State.ihlAt, h.octet_eq inside]

theorem State.sameFrame.ipHlenAt_eq {p : Nat} (inside : p < s.frameLen.toNat) : s.ipHlenAt p = t.ipHlenAt p := by
  rw [State.ipHlenAt, State.ipHlenAt, h.ihlAt_eq inside]

theorem State.sameFrame.doffAt_eq {p : Nat} (inside : p + 12 < s.frameLen.toNat) : s.doffAt p = t.doffAt p := by
  rw [State.doffAt, State.doffAt, h.octet_eq inside]

theorem State.sameFrame.tcpHlenAt_eq {p : Nat} (inside : p + 12 < s.frameLen.toNat) :
    s.tcpHlenAt p = t.tcpHlenAt p := by
  rw [State.tcpHlenAt, State.tcpHlenAt, h.doffAt_eq inside]

/-! ### The fields and words of the same frame -/

theorem State.sameFrame.ethFields_eq (inside : 14 ≤ s.frameLen.toNat) : s.ethFields = t.ethFields := by
  simp (disch := omega) only [State.ethFields, h.be16_eq, h.be32_eq, h.frameLen_eq]

theorem State.sameFrame.ipFields_eq {p : Nat} (inside : p + 20 ≤ s.frameLen.toNat) : s.ipFields p = t.ipFields p := by
  simp (disch := omega) only [State.ipFields, h.octet_eq, h.ihlAt_eq, h.ipHlenAt_eq, h.be16_eq, h.be32_eq,
    h.frameLen_eq]

theorem State.sameFrame.tcpFields_eq {p len : Nat} (inside : p + 20 ≤ s.frameLen.toNat) :
    s.tcpFields p len = t.tcpFields p len := by
  simp (disch := omega) only [State.tcpFields, h.doffAt_eq, h.tcpHlenAt_eq, h.be16_eq, h.be32_eq, h.frameLen_eq]

theorem State.sameFrame.ipHeaderWords_eq {p : Nat} (inside : p + 20 ≤ s.frameLen.toNat) :
    s.ipHeaderWords p = t.ipHeaderWords p := by
  refine List.map_congr_left fun k mem => h.be16_eq ?_
  have : k < 10 := List.mem_range.mp (List.mem_filter.mp mem).1
  omega

theorem State.sameFrame.segmentWords_eq {p len : Nat} (inside : p + len ≤ s.frameLen.toNat) :
    s.segmentWords p len = t.segmentWords p len := by
  refine List.map_congr_left fun j mem => ?_
  have : j < (len + 1) / 2 := List.mem_range.mp (List.mem_filter.mp mem).1
  rw [State.segmentWord, State.segmentWord, h.octet_eq (i := p + 2 * j) (by omega)]
  by_cases whole : 2 * j + 1 < len
  · rw [if_pos whole, if_pos whole, h.octet_eq (by omega)]
  · rw [if_neg whole, if_neg whole]

theorem State.sameFrame.rangeWords_eq {skip : Bool} {start len k : Nat} (inside : start + len ≤ 2 * s.frameLen.toNat)
    (even : len % 2 = 0) : s.rangeWords skip start len k = t.rangeWords skip start len k := by
  refine List.map_congr_left fun j mem => ?_
  have : j < (len + 3) / 4 := List.mem_range.mp (List.mem_filter.mp mem).1
  rw [State.rangeWord, State.rangeWord]
  refine ite_congr rfl (fun whole => ?_) fun padded => ?_
  · rw [h.nbe_eq (by omega)]
  · rw [h.nbe_eq (by omega)]

end

/-! ### A command on another buffer -/

/-- The state with another buffer, and with the octets that are not listed in it drawn anew (R58). -/
def State.withBuffer (s : State) (m : Memory) (n : Nat) : State :=
  { s with buffer := m, powerOns := n }

/-- A rule's end with another buffer. -/
def Result.withBuffer (r : Result) (m : Memory) (n : Nat) : Result :=
  match r with
  | .done s => .done (s.withBuffer m n)
  | .failed e s => .failed e (s.withBuffer m n)

variable {s : State} {m : Memory} {n : Nat}

theorem Result.withBuffer_ite {c : Prop} [Decidable c] (r r' : Result) :
    (if c then r else r').withBuffer m n = if c then r.withBuffer m n else r'.withBuffer m n :=
  apply_ite (Result.withBuffer · m n) c r r'

theorem Result.withBuffer_complete (r : Result) (c : Word) :
    (r.withBuffer m n).complete c = (r.complete c).withBuffer m n := by
  cases r <;> rfl

theorem checkFrameLen_withBuffer {body : State → Result}
    (h : s.frameLen.toNat ≤ s.params.frameBytes → body (s.withBuffer m n) = (body s).withBuffer m n) :
    checkFrameLen body (s.withBuffer m n) = (checkFrameLen body s).withBuffer m n := by
  rw [checkFrameLen, checkFrameLen, Result.withBuffer_ite]
  exact ite_congr rfl (fun _ => rfl) fun fits => h (Nat.le_of_not_lt fits)

/-- PH.BUILD reads registers alone. -/
theorem phBuildBody_withBuffer : phBuildBody (s.withBuffer m n) = (phBuildBody s).withBuffer m n := by
  simp only [phBuildBody, Result.withBuffer_ite]
  exact ite_congr rfl (fun _ => rfl) fun _ => rfl

section
variable (frame : s.sameFrame (s.withBuffer m n))
include frame

theorem xNibBody_withBuffer : xNibBody (s.withBuffer m n) = (xNibBody s).withBuffer m n := by
  simp only [xNibBody, Result.withBuffer_ite]
  refine ite_congr rfl (fun _ => rfl) fun _ => ite_congr rfl (fun _ => rfl) fun _ =>
    ite_congr rfl (fun _ => rfl) fun inside => ?_
  rw [frame.nbe_eq (by omega)]
  rfl

theorem xBitBody_withBuffer : xBitBody (s.withBuffer m n) = (xBitBody s).withBuffer m n := by
  simp only [xBitBody, Result.withBuffer_ite]
  refine ite_congr rfl (fun _ => rfl) fun _ => ite_congr rfl (fun _ => rfl) fun _ =>
    ite_congr rfl (fun _ => rfl) fun inside => ?_
  rw [frame.bbe_eq (by omega)]
  rfl

theorem csAddrBody_withBuffer (skip : Bool) :
    csAddrBody skip (s.withBuffer m n) = (csAddrBody skip s).withBuffer m n := by
  simp only [csAddrBody, Result.withBuffer_ite]
  refine ite_congr rfl (fun _ => rfl) fun inside => ite_congr rfl (fun _ => rfl) fun even =>
    ite_congr rfl (fun _ => rfl) fun _ => ?_
  rw [frame.rangeWords_eq (by omega) (by omega)]
  rfl

theorem decEthBody_withBuffer : decEthBody (s.withBuffer m n) = (decEthBody s).withBuffer m n := by
  simp only [decEthBody, Result.withBuffer_ite]
  refine ite_congr rfl (fun _ => rfl) fun short => ?_
  have inside : 14 ≤ s.frameLen.toNat := Nat.le_of_not_lt short
  refine ite_congr (congrArg (· ≠ 0x0800) (frame.be_eq inside).symm) (fun _ => rfl) fun _ => ?_
  have fields : ((s.withBuffer m n).invalidate .decEth).ethFields = (s.invalidate .decEth).ethFields :=
    (frame.ethFields_eq inside).symm
  rw [fields]
  rfl

theorem decIpBody_withBuffer : decIpBody (s.withBuffer m n) = (decIpBody s).withBuffer m n := by
  simp only [decIpBody, Result.withBuffer_ite]
  refine ite_congr rfl (fun _ => rfl) fun _ => ite_congr rfl (fun _ => rfl) fun short => ?_
  have inside : s.eth.payOff.toNat + 20 ≤ s.frameLen.toNat := Nat.le_of_not_lt short
  have octet := frame.octet_eq (i := s.eth.payOff.toNat + 9) (by omega)
  have ihl := frame.ihlAt_eq (p := s.eth.payOff.toNat) (by omega)
  have hlen := frame.ipHlenAt_eq (p := s.eth.payOff.toNat) (by omega)
  have fields : ((s.withBuffer m n).invalidate .decIp).ipFields
        ((s.withBuffer m n).invalidate .decIp).eth.payOff.toNat =
      (s.invalidate .decIp).ipFields (s.invalidate .decIp).eth.payOff.toNat := (frame.ipFields_eq inside).symm
  refine ite_congr (congrArg (· ≠ 6#8) octet.symm) (fun _ => rfl) fun _ =>
    ite_congr (congrArg (·.toNat < 5) ihl.symm) (fun _ => rfl) fun _ =>
    ite_congr (congrArg (s.frameLen.toNat < s.eth.payOff.toNat + ·) hlen.symm) (fun _ => rfl) fun _ => ?_
  rw [fields]
  rfl

theorem decTcpBody_withBuffer : decTcpBody (s.withBuffer m n) = (decTcpBody s).withBuffer m n := by
  simp only [decTcpBody, Result.withBuffer_ite]
  refine ite_congr rfl (fun _ => rfl) fun _ => ite_congr rfl (fun _ => rfl) fun _ =>
    ite_congr rfl (fun _ => rfl) fun past => ite_congr rfl (fun _ => rfl) fun short => ?_
  have whole : s.ip.payOff.toNat + s.segmentLen ≤ s.frameLen.toNat := Nat.le_of_not_lt past
  have header : 20 ≤ s.segmentLen := Nat.le_of_not_lt short
  have doff := frame.doffAt_eq (p := s.ip.payOff.toNat) (by omega)
  have hlen := frame.tcpHlenAt_eq (p := s.ip.payOff.toNat) (by omega)
  have fields : ((s.withBuffer m n).invalidate .decTcp).tcpFields
        ((s.withBuffer m n).invalidate .decTcp).ip.payOff.toNat ((s.withBuffer m n).invalidate .decTcp).segmentLen =
      (s.invalidate .decTcp).tcpFields (s.invalidate .decTcp).ip.payOff.toNat (s.invalidate .decTcp).segmentLen :=
    (frame.tcpFields_eq (p := s.ip.payOff.toNat) (len := s.segmentLen) (by omega)).symm
  refine ite_congr (congrArg₂ (fun doff hlen => doff.toNat < 5 ∨ s.segmentLen < hlen) doff.symm hlen.symm)
    (fun _ => rfl) fun _ => ?_
  rw [fields]
  rfl

/-- The header that CHK.IP sums lies in the frame, because IP_V says that DEC.IP accepted it. -/
theorem chkIpBody_withBuffer (current : s.Current) :
    chkIpBody (s.withBuffer m n) = (chkIpBody s).withBuffer m n := by
  simp only [chkIpBody, Result.withBuffer_ite]
  refine ite_congr rfl (fun _ => rfl) fun invalid => ?_
  have ipV : s.status.ipV = true := Bool.eq_true_of_not_eq_false invalid
  obtain ⟨⟨inside, -⟩, -⟩ := current.ip ipV
  have sum : ((s.withBuffer m n).invalidate .chkIp).ipSum = (s.invalidate .chkIp).ipSum :=
    congrArg (accSum 0) (frame.ipHeaderWords_eq inside).symm
  rw [sum]
  rfl

/-- The segment that CHK.TCP sums lies in the frame, because TCP_V, which PH_V depends on, says that DEC.TCP accepted
it. -/
theorem chkTcpBody_withBuffer (chain : s.ValidChain) (current : s.Current) :
    chkTcpBody (s.withBuffer m n) = (chkTcpBody s).withBuffer m n := by
  simp only [chkTcpBody, Result.withBuffer_ite]
  refine ite_congr rfl (fun _ => rfl) fun invalid => ?_
  have phV : s.status.phV = true := Bool.eq_true_of_not_eq_false invalid
  have inside : s.tcp.segOff.toNat + s.tcp.segLen.toNat ≤ s.frameLen.toNat := by
    obtain ⟨⟨-, whole, -⟩, fields⟩ := current.tcp (chain.ph phV)
    have frameLen := s.frameLen.isLt
    rw [fields]
    simp only [State.tcpFields, BitVec.toNat_ofNat, State.segmentLen]
    omega
  have sum : ((s.withBuffer m n).invalidate .chkTcp).tcpSum = (s.invalidate .chkTcp).tcpSum :=
    congrArg (accSum _) (frame.segmentWords_eq inside).symm
  rw [sum]
  rfl

theorem Stage.body_withBuffer (st : Stage) (chain : s.ValidChain) (current : s.Current) :
    st.body (s.withBuffer m n) = (st.body s).withBuffer m n := by
  cases st with
  | decEth => exact decEthBody_withBuffer frame
  | decIp => exact decIpBody_withBuffer frame
  | decTcp => exact decTcpBody_withBuffer frame
  | phBuild => exact phBuildBody_withBuffer
  | chkIp => exact chkIpBody_withBuffer frame current
  | chkTcp => exact chkTcpBody_withBuffer frame chain current

end

/-- A stage that commits keeps the frame and the invariants, so the next one may rely on them too. -/
theorem runStages_withBuffer (stages : List Stage) (frame : s.sameFrame (s.withBuffer m n)) (chain : s.ValidChain)
    (current : s.Current) (len : s.frameLen.toNat ≤ s.params.frameBytes) :
    runStages stages (s.withBuffer m n) = (runStages stages s).withBuffer m n := by
  induction stages generalizing s with
  | nil => rfl
  | cons st rest ih =>
    rw [runStages_cons, runStages_cons, st.body_withBuffer frame chain current]
    obtain ⟨e, failed⟩ | ⟨t, done, commit⟩ := st.body_ends fun _ => len
    · rw [failed]
      rfl
    · rw [done]
      have chain' : ({ t with stage := some st } : State).ValidChain :=
        State.ValidChain.resultInvariant.congr (s := t) rfl (chain.commit commit)
      have current' : ({ t with stage := some st } : State).Current :=
        State.Current.resultInvariant.congr (s := t) rfl (current.commit commit)
      exact ih (by cases commit <;> exact frame) chain' current' (by cases commit <;> exact len)

theorem decodeBody_withBuffer (frame : s.sameFrame (s.withBuffer m n)) (chain : s.ValidChain) (current : s.Current)
    (len : s.frameLen.toNat ≤ s.params.frameBytes) :
    decodeBody (s.withBuffer m n) = (decodeBody s).withBuffer m n := by
  have stages : runStages Stage.order ((s.withBuffer m n).invalidate .decEth) =
      (runStages Stage.order (s.invalidate .decEth)).withBuffer m n :=
    runStages_withBuffer (s := s.invalidate .decEth) _ frame (chain.invalidate .decEth) (current.invalidate .decEth) len
  rw [decodeBody, decodeBody, stages]
  cases runStages Stage.order (s.invalidate .decEth) <;> rfl

theorem finish_withBuffer {c : Word} {r r' : Result} (h : r' = r.withBuffer m n) :
    ∃ t, finish c r = .next t ∧ finish c r' = .next (t.withBuffer m n) :=
  ⟨r.complete c, rfl, by rw [h, finish, Result.withBuffer_complete]⟩

theorem exec_withBuffer (i : Instr) (frame : s.sameFrame (s.withBuffer m n)) (chain : s.ValidChain)
    (current : s.Current) : ∃ t, exec i s = .next t ∧ exec i (s.withBuffer m n) = .next (t.withBuffer m n) := by
  have checked (st : Stage) :
      checkFrameLen st.body (s.withBuffer m n) = (checkFrameLen st.body s).withBuffer m n :=
    checkFrameLen_withBuffer fun _ => st.body_withBuffer frame chain current
  cases i with
  | nop | csClr | csAddw | csFin => exact finish_withBuffer rfl
  | xNib => exact finish_withBuffer (checkFrameLen_withBuffer fun _ => xNibBody_withBuffer frame)
  | xBit => exact finish_withBuffer (checkFrameLen_withBuffer fun _ => xBitBody_withBuffer frame)
  | decEth => exact finish_withBuffer (checked .decEth)
  | decIp => exact finish_withBuffer (checked .decIp)
  | decTcp => exact finish_withBuffer (checked .decTcp)
  | csAddr skip => exact finish_withBuffer (checkFrameLen_withBuffer fun _ => csAddrBody_withBuffer frame skip)
  | csAddph =>
    refine finish_withBuffer ?_
    rw [Result.withBuffer_ite]
    exact ite_congr rfl (fun _ => rfl) fun _ => rfl
  | phBuild => exact finish_withBuffer phBuildBody_withBuffer
  | chkIp => exact finish_withBuffer (checked .chkIp)
  | chkTcp => exact finish_withBuffer (checked .chkTcp)
  | decodeFrame =>
    exact finish_withBuffer (checkFrameLen_withBuffer (decodeBody_withBuffer frame chain current))

/-- Settles O31: the other buffer holds the same frame, and each command's rule commutes with `withBuffer`. -/
theorem commandsReadOnlyTheFrame : Obligations.CommandsReadOnlyTheFrame := by
  unfold Obligations.CommandsReadOnlyTheFrame
  intro i s m n sound agree
  have frame : s.sameFrame (s.withBuffer m n) := ⟨rfl, rfl, fun k inside => (agree k inside).symm⟩
  exact exec_withBuffer i frame sound.chain sound.current

end Sys2Proof.Machine
end

section
/-! The family `30_encoding.md`: a word decodes exactly when it is not reserved, and then to the command whose word it is
(R121 to R129); how a command is written (R131); WAIT and LOADF (R132, R133). -/

namespace Sys2Proof

/-! ### The checks on a word's fields (R126) -/

theorem Fields.wf_iff (f : Fields) : f.wf = true ↔
    f.op ∈ Fields.opcodes ∧ f.rsv = 0#7 ∧ (f.skip = true → f.op = 0x22#8) ∧ (f.imm ≠ 0#16 → f.op = 0x21#8) := by
  simp only [Fields.wf, Bool.and_eq_true, Bool.or_eq_true, Bool.not_eq_true', List.contains_iff_mem, beq_iff_eq,
    ← Bool.not_eq_true, ← imp_iff_not_or, and_assoc]
  simp only [← or_iff_not_imp_left, ne_eq]

/-- A row of the opcode map has its command's OP value, and gives the command the field that its format has. -/
theorem opcodeMap_row {op : BitVec 8} {skip : Bool} {imm : Half} {i : Instr} (h : (op, i) ∈ opcodeMap skip imm) :
    op = opcodeOf i ∧ (op = 0x22#8 → skip = skipOf i) ∧ (op = 0x21#8 → imm = immOf i) := by
  have rows : ∀ row ∈ opcodeMap skip imm, row.1 = opcodeOf row.2 ∧ (row.1 = 0x22#8 → skip = skipOf row.2) ∧
      (row.1 = 0x21#8 → imm = immOf row.2) := by
    simp [opcodeMap, opcodeOf, skipOf, immOf]
  exact rows _ h

/-- Fields that pass the checks of R126 select the command of their OP value; the others none. -/
theorem decodeFields_eq_command_iff {f : Fields} {i : Instr} :
    decodeFields f = .command i ↔ f.wf = true ∧ commandOf f.op f.skip f.imm = some i := by
  rw [Fields.wf_iff, decodeFields]
  cases h : commandOf f.op f.skip f.imm with
  | none => simp
  | some j =>
    have mapped : f.op ∈ Fields.opcodes := by
      by_contra unmapped
      exact Option.some_ne_none j (h.symm.trans (commandOf_none.mpr unmapped))
    dsimp only
    split_ifs with rsv skip imm
    · simp [rsv]
    · simp [skip]
    · simp [imm]
    · rw [Decoded.command.injEq, Option.some.injEq, and_iff_right]
      exact ⟨mapped, not_not.mp rsv, fun s => not_not.mp (not_and.mp skip s), fun m => not_not.mp (not_and.mp imm m)⟩

theorem exists_decodeFields_iff {f : Fields} : (∃ i, decodeFields f = .command i) ↔ f.wf = true := by
  simp only [decodeFields_eq_command_iff, exists_and_left, and_iff_left_iff_imp]
  intro wf
  obtain ⟨mapped, -⟩ := f.wf_iff.mp wf
  exact Option.ne_none_iff_exists'.mp fun unmapped => commandOf_none.mp unmapped mapped

/-! ### Decode and encode (R121, R122, R127) -/

theorem opcodeOf_mem (i : Instr) : opcodeOf i ∈ Fields.opcodes := by
  cases i <;> simp [opcodeOf, Fields.opcodes]

theorem opcodeOf_of_skipOf {i : Instr} (h : skipOf i = true) : opcodeOf i = 0x22#8 := by
  cases i
  case csAddr => rfl
  all_goals cases h

theorem opcodeOf_of_immOf {i : Instr} (h : immOf i ≠ 0#16) : opcodeOf i = 0x21#8 := by
  cases i
  case csAddw => rfl
  all_goals exact absurd rfl h

theorem commandOf_encode (i : Instr) : commandOf (opcodeOf i) (skipOf i) (immOf i) = some i := by
  cases i <;> rfl

theorem decode_encode (i : Instr) : decode (encode i) = .command i := by
  have wf : Fields.wf ⟨opcodeOf i, skipOf i, 0#7, immOf i⟩ = true :=
    (Fields.wf_iff _).mpr ⟨opcodeOf_mem i, rfl, opcodeOf_of_skipOf, opcodeOf_of_immOf⟩
  rw [decode, fieldsOf_encode]
  exact decodeFields_eq_command_iff.mpr ⟨wf, commandOf_encode i⟩

/-- Well-formed fields are those of their command: a field that its format lacks is 0 in both. -/
theorem fields_eq_of_decodeFields {f : Fields} {i : Instr} (h : decodeFields f = .command i) :
    f = ⟨opcodeOf i, skipOf i, 0#7, immOf i⟩ := by
  obtain ⟨wf, command⟩ := decodeFields_eq_command_iff.mp h
  obtain ⟨-, rsv, skipOnly, immOnly⟩ := f.wf_iff.mp wf
  obtain ⟨op, skipRow, immRow⟩ := opcodeMap_row (commandOf_some command)
  have skip : f.skip = skipOf i := by
    by_cases addr : f.op = 0x22#8
    · exact skipRow addr
    · rw [Bool.eq_false_of_not_eq_true fun s => addr (skipOnly s),
        Bool.eq_false_of_not_eq_true fun s => addr (op.trans (opcodeOf_of_skipOf s))]
  have imm : f.imm = immOf i := by
    by_cases addw : f.op = 0x21#8
    · exact immRow addw
    · rw [not_ne_iff.mp fun s => addw (immOnly s), not_ne_iff.mp fun s => addw (op.trans (opcodeOf_of_immOf s))]
  calc f = ⟨f.op, f.skip, f.rsv, f.imm⟩ := rfl
    _ = _ := by rw [op, skip, rsv, imm]

theorem encode_of_decode {c : Word} {i : Instr} (h : decode c = .command i) : encode i = c := by
  rw [encode, ← fields_eq_of_decodeFields h, wordOf_fieldsOf]

/-- Settles O4: the word laid out from a command's fields passes every check, and the checks leave no other fields for
that command. -/
theorem decodeAndEncodeAgree : Obligations.DecodeAndEncodeAgree := by
  unfold Obligations.DecodeAndEncodeAgree
  exact ⟨decode_encode, fun _ _ => encode_of_decode⟩

/-- Settles O3: each word is the encoding of its command. -/
theorem wordsOfTheOpcodeMapDecode : Obligations.WordsOfTheOpcodeMapDecode := by
  unfold Obligations.WordsOfTheOpcodeMapDecode
  exact ⟨decode_encode .nop, decode_encode .xNib, decode_encode .xBit, decode_encode .decEth, decode_encode .decIp,
    decode_encode .decTcp, decode_encode .csClr, decode_encode (.csAddw 0x0003#16), decode_encode (.csAddr false),
    decode_encode (.csAddr true), decode_encode .csAddph, decode_encode .csFin, decode_encode .phBuild,
    decode_encode .chkIp, decode_encode .chkTcp, decode_encode .decodeFrame⟩

end Sys2Proof

namespace Sys2Proof.Machine

/-! ### Reserved words (R126, R129) -/

/-- The OP values of R129 are the numbers of those of R127. -/
theorem mem_opcodes_iff (op : BitVec 8) : op ∈ Fields.opcodes ↔ op.toNat ∈
    [0x00, 0x01, 0x02, 0x10, 0x11, 0x12, 0x20, 0x21, 0x22, 0x23, 0x24, 0x28, 0x29, 0x2A, 0x30] :=
  (List.mem_map_of_injective fun _ _ => BitVec.eq_of_toNat_eq).symm

theorem reservedWord_iff (c : Word) : reservedWord c ↔ (fieldsOf c).wf = false := by
  rw [← Bool.not_eq_true, Fields.wf_iff, reservedWord, mem_opcodes_iff, fieldsOf_op, fieldsOf_skip]
  simp only [ne_eq, ← BitVec.toNat_inj, fieldsOf_op, fieldsOf_rsv, fieldsOf_imm, decide_eq_true_eq, not_and_or,
    Classical.not_imp, BitVec.reduceToNat, Nat.reducePow]

theorem exists_decode_iff (c : Word) : (∃ i, decode c = .command i) ↔ ¬ reservedWord c := by
  rw [reservedWord_iff, Bool.not_eq_false]
  exact exists_decodeFields_iff

/-- Settles O2: the checks of decode are those of R129, and a completion is the recording or the command's meaning. -/
theorem reservedWordsCompleteWithIllegalCommand : Obligations.ReservedWordsCompleteWithIllegalCommand := by
  unfold Obligations.ReservedWordsCompleteWithIllegalCommand
  intro s u c moves
  refine ⟨fun reserved => ?_, (exists_decode_iff c).mpr⟩
  rw [step_of_engineDoes moves]
  obtain ⟨-, recorded⟩ | ⟨i, command, -⟩ := completeCommand_cases c u
  · exact recorded
  · exact absurd reserved ((exists_decode_iff c).mp ⟨i, command⟩)

/-! ### How a command is written (R131) -/

theorem map_capital (name : List Char) : name.map capital = name.map Char.toUpper :=
  List.map_congr_left fun c _ => capital_eq_toUpper c

theorem map_toUpper_mnemonic (i : Instr) : (mnemonic i).map Char.toUpper = mnemonic i := by
  cases i with
  | csAddr skip => cases skip <;> rfl
  | _ => rfl

/-- No two commands with one operand share a mnemonic. -/
theorem find?_mnemonic (i : Instr) : (candidates (syntaxOperand i)).find? (mnemonic · == mnemonic i) = some i := by
  cases i with
  | csAddw imm =>
    have le : imm.toNat ≤ 0xFFFF := Nat.le_of_lt_succ imm.isLt
    simp [syntaxOperand, candidates, le, mnemonic]
  | csAddr skip => cases skip <;> rfl
  | _ => rfl

/-- What assembles: a command's mnemonic, in capitals or not, with the operand of its format. -/
theorem assemble_eq_some_iff {name : List Char} {operand : Option Nat} {i : Instr} : assemble name operand = some i ↔
    operand = syntaxOperand i ∧ name.map Char.toUpper = mnemonic i := by
  rw [assemble, map_capital]
  constructor
  · intro found
    have spelt : mnemonic i = name.map Char.toUpper := by simpa using List.find?_some found
    exact ⟨mem_candidates.mp (List.mem_of_find?_eq_some found), spelt.symm⟩
  · rintro ⟨rfl, spelt⟩
    rw [spelt, find?_mnemonic]

theorem assemble_mnemonic (i : Instr) : assemble (mnemonic i) (syntaxOperand i) = some i :=
  assemble_eq_some_iff.mpr ⟨rfl, map_toUpper_mnemonic i⟩

theorem assemble_too_large (name : List Char) {n : Nat} (h : 0xFFFF < n) : assemble name (some n) = none := by
  rw [assemble, candidates, if_neg (Nat.not_le.mpr h), List.find?_nil]

/-- Settles O5: each mnemonic written out is the model's, and assembling is spelling a mnemonic with its operand. -/
theorem syntaxAssemblesToItsCommand : Obligations.SyntaxAssemblesToItsCommand := by
  unfold Obligations.SyntaxAssemblesToItsCommand
  exact ⟨assemble_mnemonic .nop, assemble_mnemonic .xNib, assemble_mnemonic .xBit, assemble_mnemonic .decEth,
    assemble_mnemonic .decIp, assemble_mnemonic .decTcp, assemble_mnemonic .csClr,
    fun w => assemble_mnemonic (.csAddw w), assemble_mnemonic (.csAddr false), assemble_mnemonic (.csAddr true),
    assemble_mnemonic .csAddph, assemble_mnemonic .csFin, assemble_mnemonic .phBuild, assemble_mnemonic .chkIp,
    assemble_mnemonic .chkTcp, assemble_mnemonic .decodeFrame,
    fun _ _ spelt => assemble_eq_some_iff.mpr ⟨rfl, spelt⟩, fun _ _ _ => assemble_eq_some_iff.mp,
    fun name _ => assemble_too_large name⟩

/-! ### WAIT (R132) -/

/-- Settles O47: the step is the poll of STATUS, and taking the input changes nothing that STATUS reads. -/
theorem waitReadsStatusUntilIdle : Obligations.WaitReadsStatusUntilIdle := by
  unfold Obligations.WaitReadsStatusUntilIdle
  intro s u moves
  obtain ⟨status, -, -, -, readReg⟩ := State.hostDoes_same moves
  rw [← status, ← readReg .status, step_of_hostDoes moves]
  obtain ⟨busy, polled⟩ | ⟨idle, polled⟩ := u.poll_cases
  · exact ⟨fun idle => absurd busy (by simp [idle]), fun _ => congrArg _ polled⟩
  · exact ⟨fun _ => congrArg _ polled, fun busy => absurd busy (by simp [idle])⟩

/-! ### LOADF (R133) -/

theorem run_succ {s t : State} (h : step s = .next t) (k : Nat) :
    Host.Core.run Sys2Proof.core (k + 1) s = Host.Core.run Sys2Proof.core k t := by
  simp [Host.Core.run, Sys2Proof.core, h]

/-- No turn is left, nothing is pending, BUSY is 0, and the host has these inputs to come: its moves come next (log 4). -/
structure State.IdleWith (s : State) (inputs : List Input) : Prop where
  turns : s.turns = []
  pending : s.pending = none
  idle : s.status.busy = false
  inputs : s.inputs = inputs

theorem State.IdleWith.hostDoes {s : State} {a : Input} {rest : List Input} (h : s.IdleWith (a :: rest)) :
    s.hostDoes a { s with turns := s.turns.tail, inputs := rest } :=
  ⟨.inr ⟨h.turns, h.pending⟩, rest, h.inputs, rfl⟩

/-- A buffer write of LOADF: its four octets are in the buffer, and those before them are as they were. -/
theorem State.IdleWith.step_writeBuf {s : State} {i : Nat} {v : Word} {rest : List Input}
    (h : s.IdleWith (writeBufOp i v :: rest)) (aligned : i % 4 = 0) (fits : i + 4 ≤ s.params.frameBytes) :
    ∃ t, step s = .next t ∧ t.IdleWith rest ∧ t.params = s.params ∧
      (∀ k (lane : k < 4), t.octet (i + k) = (lanesOf v)[k]'lane) ∧ ∀ j, j < i → t.octet j = s.octet j :=
  ⟨_, step_taken (step_writeWord h.hostDoes aligned fits) rfl h.idle,
    ⟨by rw [h.turns]; rfl, h.pending, h.idle, rfl⟩, rfl, fun _ lane => State.octet_written s i (lanesOf v) lane,
    fun _ before => State.octet_not_written s (.inl before)⟩

theorem State.IdleWith.step_writeFrameLen {s : State} {v : Word} {rest : List Input}
    (h : s.IdleWith (writeRegOp .frameLen v :: rest)) :
    ∃ t, step s = .next t ∧ t.inputs = rest ∧ t.frameLen = v.setWidth 16 ∧ ∀ j, t.octet j = s.octet j :=
  ⟨_, step_taken (step_writeReg .frameLen h.hostDoes) (State.writeReg_frameLen _ v) h.idle, rfl, rfl, fun _ => rfl⟩

theorem lanesOf_append (b₀ b₁ b₂ b₃ : Octet) : lanesOf (b₃ ++ (b₂ ++ (b₁ ++ b₀))) = [b₀, b₁, b₂, b₃] := by
  have octet₀ := b₀.isLt
  have octet₁ := b₁.isLt
  have octet₂ := b₂.isLt
  have octet₃ := b₃.isLt
  simp only [lanesOf, List.cons.injEq, and_true, ← BitVec.toNat_inj, BitVec.extractLsb'_toNat, toNat_append_eq_add,
    Nat.shiftRight_eq_div_pow]
  omega

/-- LOADF of some octets is one write, whose lanes begin with the first four of them, and LOADF of the others. -/
theorem loadWrites_of_ne_nil (a : Nat) {bs : List Octet} (h : bs ≠ []) : ∃ v : Word,
    loadWrites a bs = writeBufOp a v :: loadWrites (a + 4) (bs.drop 4) ∧ bs.take 4 <+: lanesOf v := by
  match bs with
  | [b₀] => exact ⟨_, rfl, by rw [lanesOf_append]; exact ⟨[0, 0, 0], rfl⟩⟩
  | [b₀, b₁] => exact ⟨_, rfl, by rw [lanesOf_append]; exact ⟨[0, 0], rfl⟩⟩
  | [b₀, b₁, b₂] => exact ⟨_, rfl, by rw [lanesOf_append]; exact ⟨[0], rfl⟩⟩
  | b₀ :: b₁ :: b₂ :: b₃ :: rest => exact ⟨_, rfl, by rw [lanesOf_append]; exact ⟨[], rfl⟩⟩

/-- LOADF from offset `a` on, by its number of buffer writes: after them and the write of FRAME_LEN the octets stand
from `a` on, and what stood before `a` still does. -/
theorem State.IdleWith.run_loadWrites {n : Nat} {s : State} {a : Nat} {bs : List Octet} {len : Word}
    {rest : List Input} (h : s.IdleWith (loadWrites a bs ++ writeRegOp .frameLen len :: rest))
    (count : (bs.length + 3) / 4 = n) (aligned : a % 4 = 0) (fits : a + 4 * n ≤ s.params.frameBytes) :
    ∃ t, Host.Core.run Sys2Proof.core (n + 1) s = .next t ∧ t.inputs = rest ∧ t.frameLen = len.setWidth 16 ∧
      (∀ k (inside : k < bs.length), t.octet (a + k) = bs[k]) ∧ ∀ j, j < a → t.octet j = s.octet j := by
  induction n generalizing s a bs with
  | zero =>
    obtain rfl : bs = [] := List.eq_nil_of_length_eq_zero (by omega)
    obtain ⟨t, written, inputs, frameLen, octets⟩ := h.step_writeFrameLen
    exact ⟨t, run_succ written 0, inputs, frameLen, fun _ inside => absurd inside (by simp), fun j _ => octets j⟩
  | succ n ih =>
    have nonempty : bs ≠ [] := by rintro rfl; simp at count
    obtain ⟨v, writes, ⟨padding, lanes⟩⟩ := loadWrites_of_ne_nil a nonempty
    rw [writes, List.cons_append] at h
    obtain ⟨u, written, idle, params, word, before⟩ := h.step_writeBuf aligned (by omega)
    obtain ⟨t, ran, inputs, frameLen, octets, kept⟩ := ih idle (by rw [List.length_drop]; omega) (by omega)
      (by rw [params]; omega)
    refine ⟨t, (run_succ written _).trans ran, inputs, frameLen, fun k inside => ?_, fun j lt =>
      (kept j (by omega)).trans (before j lt)⟩
    rcases Nat.lt_or_ge k 4 with first | later
    · rw [kept _ (by omega), word k first]
      simp [← lanes, List.getElem_append_left, inside, first]
    · have octet := octets (k - 4) (by rw [List.length_drop]; omega)
      rw [List.getElem_drop] at octet
      rw [show a + k = a + 4 + (k - 4) by omega, octet]
      congr 1
      omega

/-- Settles O54: LOADF is its buffer writes from offset 0 and the write of FRAME_LEN, a length that fits in 16 bits. -/
theorem loadFrameLoadsTheFrame : Obligations.LoadFrameLoadsTheFrame := by
  unfold Obligations.LoadFrameLoadsTheFrame
  intro s bs rest protocol pending turns fits inputs
  have idle : s.status.busy = false := by rw [protocol.busyPending, pending]; rfl
  have start : s.IdleWith (loadWrites 0 bs ++ writeRegOp .frameLen (BitVec.ofNat 32 bs.length) :: rest) :=
    ⟨turns, pending, idle, by rw [inputs, loadFrameMacro, List.append_assoc]; rfl⟩
  have short : bs.length ≤ 61440 := by
    have size := protocol.params
    simp only [Config.Params.wf, Bool.and_eq_true, decide_eq_true_eq] at size
    omega
  obtain ⟨t, ran, left, frameLen, octets, -⟩ := start.run_loadWrites rfl rfl (by omega)
  refine ⟨t, ran, left, ?_, fun k inside => ?_⟩
  · rw [frameLen, BitVec.toNat_setWidth, BitVec.toNat_ofNat]
    omega
  · rw [← octets k inside, Nat.zero_add]

end Sys2Proof.Machine
end

section
/-! The family `40_accessor.md`: X.NIB and X.BIT are the ordered checks of a range of units, and then the write of its
value to X_RES (R150 to R153). -/

namespace Sys2Proof.Machine

/-! ### A rule whose checks come in order (R302) -/

theorem firstError_eq_none_iff {checks : List (Bool × CmdError)} :
    firstError checks = none ↔ ∀ check ∈ checks, check.1 = false := by
  induction checks with
  | nil => simp [firstError]
  | cons check rest ih =>
    obtain ⟨failed, e⟩ := check
    cases failed <;> simp [firstError, ih]

/-- The end of a rule with these checks: the first that fails ends it in `s` with its error; when none does, it goes on
as `r`. -/
def Result.afterChecks (checks : List (Bool × CmdError)) (s : State) (r : Result) : Result :=
  match firstError checks with
  | some e => .failed e s
  | none => r

theorem Result.afterChecks_nil (s : State) (r : Result) : Result.afterChecks [] s r = r := rfl

theorem Result.afterChecks_cons (failed : Bool) (e : CmdError) (rest : List (Bool × CmdError)) (s : State)
    (r : Result) : Result.afterChecks ((failed, e) :: rest) s r =
      if failed then .failed e s else Result.afterChecks rest s r := by
  cases failed <;> rfl

theorem finish_afterChecks_of_error {checks : List (Bool × CmdError)} {e : CmdError}
    (h : firstError checks = some e) (c : Word) (s : State) (r : Result) :
    finish c (Result.afterChecks checks s r) = .next (s.afterFailure s.status c e) := by
  rw [Result.afterChecks, h]
  rfl

theorem finish_afterChecks_of_none {checks : List (Bool × CmdError)} (h : firstError checks = none) (c : Word)
    (s t : State) : finish c (Result.afterChecks checks s (.done t)) = .next (t.afterSuccess t.status) := by
  rw [Result.afterChecks, h]
  rfl

/-! ### The two accessors -/

/-- The two halves of X_RES as numbers (R51). -/
theorem State.setXRes_eq (s : State) (v : Nat) :
    s.setXRes v =
      { s with xResHi := BitVec.ofNat 32 (v / 2 ^ 32), xResLo := BitVec.ofNat 32 (v % 2 ^ 32) } := by
  have hi : (BitVec.ofNat 64 v).extractLsb' 32 32 = BitVec.ofNat 32 (v / 2 ^ 32) := by
    apply BitVec.eq_of_toNat_eq
    simp only [BitVec.extractLsb'_toNat, BitVec.toNat_ofNat, Nat.shiftRight_eq_div_pow]
    omega
  have lo : (BitVec.ofNat 64 v).extractLsb' 0 32 = BitVec.ofNat 32 (v % 2 ^ 32) := by
    apply BitVec.eq_of_toNat_eq
    simp only [BitVec.extractLsb'_toNat, BitVec.toNat_ofNat, Nat.shiftRight_zero]
    omega
  rw [State.setXRes, hi, lo]

/-- The checks of R152 and R153 in their order: at most `limit` units, in a frame of `total` units. -/
def State.rangeChecks (s : State) (limit total : Nat) : List (Bool × CmdError) :=
  [(s.frameTooLong, .badOperand), (decide (s.argLen.toNat = 0), .missingValue),
   (decide (s.argLen.toNat > limit), .badOperand),
   (decide (s.argStart.toNat + s.argLen.toNat > total), .outOfRange)]

theorem State.rangeChecks_pass_iff (s : State) (limit total : Nat) : firstError (s.rangeChecks limit total) = none ↔
    s.frameLen.toNat ≤ s.params.frameBytes ∧ 1 ≤ s.argLen.toNat ∧ s.argLen.toNat ≤ limit ∧
      s.argStart.toNat + s.argLen.toNat ≤ total := by
  simp [firstError_eq_none_iff, State.rangeChecks, State.frameTooLong, Nat.one_le_iff_ne_zero]

theorem exec_xNib_eq (s : State) : exec .xNib s = finish 0x00000001#32
    (Result.afterChecks (s.rangeChecks 16 (2 * s.frameLen.toNat)) s
      (.done (s.setXRes (s.nbe s.argStart.toNat s.argLen.toNat)))) := by
  simp only [State.rangeChecks, State.frameTooLong, Result.afterChecks_cons, Result.afterChecks_nil, decide_eq_true_eq]
  rfl

theorem exec_xBit_eq (s : State) : exec .xBit s = finish 0x00000002#32
    (Result.afterChecks (s.rangeChecks 64 (8 * s.frameLen.toNat)) s
      (.done (s.setXRes (s.bbe s.argStart.toNat s.argLen.toNat)))) := by
  simp only [State.rangeChecks, State.frameTooLong, Result.afterChecks_cons, Result.afterChecks_nil, decide_eq_true_eq]
  rfl

/-- Both accessors, at any unit: a range that passes the checks writes its value `v` to X_RES, and any other fails at
its first failing check. -/
theorem finish_rangeChecks (s : State) (c : Word) (limit total v : Nat) :
    (s.frameLen.toNat ≤ s.params.frameBytes → 1 ≤ s.argLen.toNat → s.argLen.toNat ≤ limit →
      s.argStart.toNat + s.argLen.toNat ≤ total →
      finish c (Result.afterChecks (s.rangeChecks limit total) s (.done (s.setXRes v))) =
        .next ({ s with
          xResHi := BitVec.ofNat 32 (v / 2 ^ 32)
          xResLo := BitVec.ofNat 32 (v % 2 ^ 32) }.afterSuccess s.status)) ∧
    (∀ e, firstError (s.rangeChecks limit total) = some e →
      finish c (Result.afterChecks (s.rangeChecks limit total) s (.done (s.setXRes v))) =
        .next (s.afterFailure s.status c e)) := by
  refine ⟨fun fits nonempty within inside => ?_, fun e failed => finish_afterChecks_of_error failed c s _⟩
  have pass := (s.rangeChecks_pass_iff limit total).mpr ⟨fits, nonempty, within, inside⟩
  rw [finish_afterChecks_of_none pass, s.setXRes_eq]

/-- Settles O12: the checks of X.NIB are those of a range of nibbles, at most 16. -/
theorem xNibFollowsItsRule : Obligations.XNibFollowsItsRule := by
  unfold Obligations.XNibFollowsItsRule
  intro s
  rw [exec_xNib_eq]
  exact finish_rangeChecks s _ 16 _ _

/-- Settles O13: the checks of X.BIT are those of a range of bits, at most 64. -/
theorem xBitFollowsItsRule : Obligations.XBitFollowsItsRule := by
  unfold Obligations.XBitFollowsItsRule
  intro s
  rw [exec_xBit_eq]
  exact finish_rangeChecks s _ 64 _ _

end Sys2Proof.Machine
end

section
/-! The family `41_layer_decode.md`: each layer decoder is the frame-length check, then its ordered checks with its
invalidation set cleared, and then the write of the registers of its layer (R170 to R194). -/

namespace Sys2Proof.Machine

/-! ### A rule that begins with the frame-length check (R128) -/

/-- The three ways a layer decoder ends, for a body whose checks come in order: with its commit `t`, with the
frame-length error in the state it began in, or with the first failing check in the state `u` that it leaves. -/
theorem finish_checkFrameLen_afterChecks {body : State → Result} {checks : List (Bool × CmdError)} {s u t : State}
    (rule : body s = Result.afterChecks checks u (.done t)) (c : Word) :
    (s.frameLen.toNat ≤ s.params.frameBytes → firstError checks = none →
      finish c (checkFrameLen body s) = .next (t.afterSuccess t.status)) ∧
    (s.frameTooLong = true → finish c (checkFrameLen body s) = .next (s.afterFailure s.status c .badOperand)) ∧
    (s.frameTooLong = false → ∀ e, firstError checks = some e →
      finish c (checkFrameLen body s) = .next (u.afterFailure u.status c e)) := by
  refine ⟨fun fits pass => ?_, fun tooLong => ?_, fun fits e failed => ?_⟩
  · rw [checkFrameLen_of_le fits, rule, finish_afterChecks_of_none pass]
  · rw [checkFrameLen_of_gt (of_decide_eq_true tooLong)]
    rfl
  · rw [checkFrameLen_of_le (Nat.le_of_not_lt (of_decide_eq_false fits)), rule, finish_afterChecks_of_error failed]

/-! ### DEC.ETH -/

/-- The checks of R171 and R172 in the order of R173. -/
def State.ethChecks (s : State) : List (Bool × CmdError) :=
  [(decide (s.frameLen.toNat < 14), .malformedInput), (decide (s.be 12 2 ≠ 0x0800), .notIpPacket)]

theorem decEthBody_eq_afterChecks (s : State) : decEthBody s =
    Result.afterChecks s.ethChecks (s.invalidate .decEth)
      (.done { s with eth := s.ethFields, status := { s.status.withoutFrame with ethV := true } }) := by
  simp only [State.ethChecks, Result.afterChecks_cons, Result.afterChecks_nil, decide_eq_true_eq]
  rfl

theorem State.ethChecks_pass {s : State} (long : 14 ≤ s.frameLen.toNat) (ipv4 : s.be 12 2 = 0x0800) :
    firstError s.ethChecks = none := by
  simp [firstError_eq_none_iff, State.ethChecks, long, ipv4]

/-- Settles O14: DEC.ETH is its two ordered checks after the frame-length check, and the EtherType it writes is the one
it has checked. -/
theorem decEthFollowsItsRule : Obligations.DecEthFollowsItsRule := by
  unfold Obligations.DecEthFollowsItsRule
  intro s
  obtain ⟨done, tooLong, failed⟩ := finish_checkFrameLen_afterChecks (decEthBody_eq_afterChecks s) (encode .decEth)
  refine ⟨fun fits long ipv4 => ?_, tooLong, failed⟩
  refine (done fits (State.ethChecks_pass long ipv4)).trans ?_
  simp only [State.ethFields, State.be16, State.be32, ipv4]
  rfl

/-! ### Fields of an octet or a half word as numbers (R175, R177, R183) -/

theorem extractLsb'_eq_ofNat_div {w : Nat} (x : BitVec w) (start len : Nat) :
    x.extractLsb' start len = BitVec.ofNat len (x.toNat / 2 ^ start) := by
  rw [BitVec.extractLsb', Nat.shiftRight_eq_div_pow]

/-- The low bits of a half word of the frame. -/
theorem State.be16_low (s : State) (i len : Nat) :
    (s.be16 i).extractLsb' 0 len = BitVec.ofNat len (s.be i 2 % 2 ^ len) := by
  apply BitVec.eq_of_toNat_eq
  rw [BitVec.extractLsb'_toNat, Nat.shiftRight_zero, State.be16_toNat, BitVec.toNat_ofNat, Nat.mod_mod]

theorem State.ihlAt_toNat (s : State) (p : Nat) : (s.ihlAt p).toNat = (s.octet p).toNat % 16 := by
  rw [State.ihlAt, ← State.nib_odd, State.nib_odd_toNat]

theorem State.doffAt_toNat (s : State) (t : Nat) : (s.doffAt t).toNat = (s.octet (t + 12)).toNat / 16 := by
  rw [State.doffAt, ← State.nib_even, State.nib_even_toNat]

/-! ### DEC.IP -/

/-- The checks of R176 and R178 to R180 in the order of R182, for the header at octet `p` with IHL `ihl`. -/
def State.ipChecks (s : State) (p ihl : Nat) : List (Bool × CmdError) :=
  [(!s.status.ethV, .notDecoded), (decide ((s.frameLen.toNat : Int) - p < 20), .malformedInput),
   (decide (s.octet (p + 9) ≠ 6#8), .notTcpPacket), (decide (ihl < 5), .malformedInput),
   (decide (p + 4 * ihl > s.frameLen.toNat), .malformedInput)]

theorem decIpBody_eq_afterChecks (s : State) : decIpBody s =
    Result.afterChecks (s.ipChecks s.eth.payOff.toNat (s.ihlAt s.eth.payOff.toNat).toNat) (s.invalidate .decIp)
      (.done { s with
        ip := s.ipFields s.eth.payOff.toNat, status := { s.status.withoutIp with ipV := true } }) := by
  have short : (s.frameLen.toNat : Int) - s.eth.payOff.toNat < 20 ↔ s.frameLen.toNat < s.eth.payOff.toNat + 20 := by
    omega
  simp only [State.ipChecks, Result.afterChecks_cons, Result.afterChecks_nil, decide_eq_true_eq, Bool.not_eq_true',
    short]
  rfl

theorem State.ipChecks_pass {s : State} {p ihl : Nat} (ethV : s.status.ethV = true) (header : p + 20 ≤ s.frameLen.toNat)
    (tcp : s.octet (p + 9) = 6#8) (ihlMin : 5 ≤ ihl) (inside : p + 4 * ihl ≤ s.frameLen.toNat) :
    firstError (s.ipChecks p ihl) = none := by
  have enough : (20 : Int) ≤ (s.frameLen.toNat : Int) - p := by omega
  simp [firstError_eq_none_iff, State.ipChecks, ethV, enough, tcp, ihlMin, inside]

/-- Settles O15: DEC.IP is its five ordered checks after the frame-length check, with the subtraction of R176 turned
into a sum, and its registers are fields of octets and half words of the header. -/
theorem decIpFollowsItsRule : Obligations.DecIpFollowsItsRule := by
  unfold Obligations.DecIpFollowsItsRule
  rintro s p ihl rfl ihlOctet
  obtain rfl : ihl = (s.ihlAt s.eth.payOff.toNat).toNat := by rw [ihlOctet, State.ihlAt_toNat]
  obtain ⟨done, tooLong, failed⟩ := finish_checkFrameLen_afterChecks (decIpBody_eq_afterChecks s) (encode .decIp)
  refine ⟨fun fits ethV header tcp ihlMin inside => ?_, tooLong, failed⟩
  refine (done fits (State.ipChecks_pass ethV header tcp ihlMin inside)).trans ?_
  rw [State.ipFields, State.be16_low]
  simp only [extractLsb'_eq_ofNat_div, State.be16_toNat, tcp, BitVec.ofNat_toNat, BitVec.setWidth_eq]
  rfl

/-! ### DEC.TCP -/

/-- The checks of R185 to R188 in the order of R194, for the segment of `len` octets at octet `t` with data offset
`doff`. -/
def State.tcpChecks (s : State) (t doff : Nat) (len : Int) : List (Bool × CmdError) :=
  [(!s.status.ipV, .notDecoded), (decide (len < 0), .malformedInput),
   (decide (t + len > s.frameLen.toNat), .outOfRange), (decide (len < 20), .malformedInput),
   (decide (doff < 5 ∨ 4 * doff > len), .malformedInput)]

theorem State.segmentLen_cast {s : State} (nonneg : s.ip.hlen.toNat ≤ s.ip.totlen.toNat) :
    (s.segmentLen : Int) = s.ip.totlen.toNat - s.ip.hlen.toNat :=
  Nat.cast_sub nonneg

/-- The later checks compare the model's natural length, which is the integer difference where they are reached. -/
theorem decTcpBody_eq_afterChecks (s : State) : decTcpBody s =
    Result.afterChecks
      (s.tcpChecks s.ip.payOff.toNat (s.doffAt s.ip.payOff.toNat).toNat (s.ip.totlen.toNat - s.ip.hlen.toNat))
      (s.invalidate .decTcp)
      (.done { s with
        tcp := s.tcpFields s.ip.payOff.toNat s.segmentLen, status := { s.status.withoutTcp with tcpV := true } }) := by
  have negative : s.ip.totlen.toNat < s.ip.hlen.toNat ↔ (s.ip.totlen.toNat : Int) - s.ip.hlen.toNat < 0 := by omega
  simp only [State.tcpChecks, Result.afterChecks_cons, Result.afterChecks_nil, decide_eq_true_eq, Bool.not_eq_true']
  refine if_congr Iff.rfl rfl (if_ctx_congr negative (fun _ => rfl) fun nonneg => ?_)
  rw [← State.segmentLen_cast (Nat.le_of_not_lt (mt negative.mp nonneg))]
  norm_cast

theorem State.tcpChecks_pass {s : State} {t doff : Nat} {len : Int} (ipV : s.status.ipV = true)
    (inside : t + len ≤ s.frameLen.toNat) (header : 20 ≤ len) (doffMin : 5 ≤ doff) (options : 4 * doff ≤ len) :
    firstError (s.tcpChecks t doff len) = none := by
  have nonneg : 0 ≤ len := by omega
  simp [firstError_eq_none_iff, State.tcpChecks, ipV, nonneg, inside, header, doffMin, options]

/-- Settles O16: DEC.TCP is its five ordered checks after the frame-length check. Where they pass, no subtraction is
negative, so the integers that the registers are cut from are the model's natural numbers. -/
theorem decTcpFollowsItsRule : Obligations.DecTcpFollowsItsRule := by
  unfold Obligations.DecTcpFollowsItsRule
  rintro s t doff len rfl lenDiff doffOctet
  obtain rfl : doff = (s.doffAt s.ip.payOff.toNat).toNat := by rw [doffOctet, State.doffAt_toNat]
  subst lenDiff
  obtain ⟨done, tooLong, failed⟩ := finish_checkFrameLen_afterChecks (decTcpBody_eq_afterChecks s) (encode .decTcp)
  refine ⟨fun fits ipV inside header doffMin options => ?_, tooLong, failed⟩
  refine (done fits (State.tcpChecks_pass ipV inside header doffMin options)).trans ?_
  rw [← State.segmentLen_cast (by omega)] at inside options ⊢
  norm_cast at inside options
  rw [State.tcpFields, State.be16_low]
  norm_cast
  simp only [BitVec.ofNat_toNat, BitVec.setWidth_eq, BitVec.ofInt_natCast]
  rfl

end Sys2Proof.Machine
end

section
/-! The family `42_checksum.md`: the accumulator after any words is the closed form of their sum (R210 to R214); each
checksum command adds its words or fails at its first failing check (R215 to R225); and where a check says OK, the
checksum completes its sum to 0xFFFF (R227). -/

namespace Sys2Proof.Machine

/-! ### The closed form of a sum (R212) -/

theorem onesSum_of_le {a : Nat} (h : a ≤ 0xFFFF) : onesSum a = a := by
  rw [onesSum]
  split <;> omega

theorem onesSum_le (a : Nat) : onesSum a ≤ 0xFFFF := by
  rw [onesSum]
  split <;> omega

theorem onesSum_eq_zero_iff (a : Nat) : onesSum a = 0 ↔ a = 0 := by
  rw [onesSum]
  split <;> omega

/-- Taking the closed form of a part of a sum first changes nothing. -/
theorem onesSum_onesSum_add (a b : Nat) : onesSum (onesSum a + b) = onesSum (a + b) := by
  simp only [onesSum]
  split <;> split <;> split <;> omega

/-- One round of end-around carry keeps the closed form, because 0x10000 is 1 modulo 0xFFFF. -/
theorem onesSum_carry (a : Nat) : onesSum (a % 0x10000 + a / 0x10000) = onesSum a := by
  simp only [onesSum]
  split <;> split <;> omega

/-! ### fold and acc_add (R210, R211) -/

theorem fold_of_le {a : Nat} (h : a ≤ 0xFFFF) : fold a = a := foldLoop_of_le h a

theorem fold_of_gt {a : Nat} (h : 0xFFFF < a) : fold a = fold (a % 0x10000 + a / 0x10000) := by
  obtain ⟨n, rfl⟩ : ∃ n, a = n + 1 := ⟨a - 1, by omega⟩
  rw [fold, foldLoop_of_gt h, fold]
  exact foldLoop_fuel (by omega) le_rfl

theorem fold_eq_onesSum (a : Nat) : fold a = onesSum a := by
  induction a using Nat.strong_induction_on with
  | h a ih =>
    by_cases h : a ≤ 0xFFFF
    · rw [fold_of_le h, onesSum_of_le h]
    · rw [fold_of_gt (by omega), ih _ (by omega), onesSum_carry]

theorem accAdd_toNat (acc w : Half) : (accAdd acc w).toNat = onesSum (acc.toNat + w.toNat) := by
  have := onesSum_le (acc.toNat + w.toNat)
  rw [accAdd, fold_eq_onesSum, BitVec.toNat_ofNat, Nat.mod_eq_of_lt (by omega)]

theorem accSum_toNat (acc : Half) (ws : List Half) :
    (accSum acc ws).toNat = onesSum (acc.toNat + (ws.map BitVec.toNat).sum) := by
  induction ws generalizing acc with
  | nil =>
    have := acc.isLt
    exact (onesSum_of_le (by simp; omega)).symm
  | cons w ws ih =>
    rw [accSum_cons, ih, accAdd_toNat, onesSum_onesSum_add, List.map_cons, List.sum_cons, Nat.add_assoc]

theorem accSum_eq (acc : Half) (ws : List Half) :
    accSum acc ws = BitVec.ofNat 16 (onesSum (acc.toNat + (ws.map BitVec.toNat).sum)) := by
  rw [← accSum_toNat, BitVec.ofNat_toNat, BitVec.setWidth_eq]

/-- The order of the words does not matter. -/
theorem accSum_perm (acc : Half) {ws ws' : List Half} (h : ws.Perm ws') : accSum acc ws = accSum acc ws' := by
  rw [accSum_eq, accSum_eq, (h.map BitVec.toNat).sum_eq]

theorem accSum_eq_zero_iff (acc : Half) (ws : List Half) :
    accSum acc ws = 0#16 ↔ acc = 0#16 ∧ ∀ w ∈ ws, w = 0#16 := by
  simp only [← BitVec.toNat_inj, accSum_toNat, BitVec.toNat_ofNat, Nat.zero_mod, onesSum_eq_zero_iff,
    Nat.add_eq_zero_iff, List.sum_eq_zero_iff, List.forall_mem_map]

/-- Settles O8: each round of fold keeps the closed form, and the closed form of two words is one round. -/
theorem foldAndAccAddAreEndAroundCarry : Obligations.FoldAndAccAddAreEndAroundCarry := by
  unfold Obligations.FoldAndAccAddAreEndAroundCarry
  refine ⟨fun a => ⟨?_, fold_of_le, fold_of_gt⟩, fun acc w => ⟨?_, ?_⟩, fun acc ws => ?_⟩
  · rw [fold_eq_onesSum]
    exact onesSum_le a
  · rw [accAdd_toNat, fold_eq_onesSum]
  · have hacc := acc.isLt
    have hw := w.isLt
    rw [accAdd_toNat, onesSum]
    split <;> split <;> omega
  · rw [accSum_toNat, fold_eq_onesSum]

/-- Settles O9: the consequences are those of a sum of numbers. -/
theorem sumHasTheClosedForm : Obligations.SumHasTheClosedForm := by
  unfold Obligations.SumHasTheClosedForm
  intro acc ws
  refine ⟨accSum_toNat acc ws, fun ws' h => accSum_perm acc h.symm, ?_, accSum_eq_zero_iff acc ws⟩
  rw [accSum_eq, accSum_eq, List.map_cons, List.sum_cons, BitVec.toNat_ofNat, Nat.zero_mod, Nat.zero_add]

/-! ### The complement (R214) -/

theorem checksumOf_toNat (acc : Half) : (checksumOf acc).toNat = 0xFFFF - acc.toNat := by
  rw [checksumOf, BitVec.toNat_not]

theorem checksumOf_eq (acc : Half) : checksumOf acc = BitVec.ofNat 16 (0xFFFF - acc.toNat) := by
  rw [← checksumOf_toNat, BitVec.ofNat_toNat, BitVec.setWidth_eq]

theorem accAdd_checksumOf (acc : Half) : accAdd acc (checksumOf acc) = 0xFFFF#16 := by
  have total : acc.toNat + (0xFFFF - acc.toNat) = 0xFFFF := by have := acc.isLt; omega
  apply BitVec.eq_of_toNat_eq
  rw [accAdd_toNat, checksumOf_toNat, total]
  rfl

/-- Settles O10: a value and its complement add up to 0xFFFF with no carry. -/
theorem complementIsAnInvolution : Obligations.ComplementIsAnInvolution := by
  unfold Obligations.ComplementIsAnInvolution
  exact fun acc => ⟨checksumOf_toNat acc, BitVec.not_not, accAdd_checksumOf acc⟩

/-! ### The plain commands (R215, R216, R219) -/

theorem encode_csAddw_toNat (w : Half) : (encode (.csAddw w)).toNat = w.toNat * 2 ^ 16 + 0x21 := by
  rw [encode, wordOf_toNat]
  simp only [opcodeOf, skipOf, immOf, BitVec.toNat_ofNat, Bool.toNat_false]
  omega

/-- Settles O11: each command is the recording of its one write. -/
theorem plainCommandsComplete : Obligations.PlainCommandsComplete := by
  unfold Obligations.PlainCommandsComplete
  intro s w
  refine ⟨rfl, rfl, rfl, ?_, rfl, rfl, rfl, encode_csAddw_toNat w⟩
  rw [← checksumOf_eq]
  rfl

/-! ### Leaving a word out of a sum -/

/-- A word left out counts as 0. -/
theorem sum_leavingOut (out : Nat → Bool) (word : Nat → Half) (js : List Nat) :
    (((js.filter fun j => !out j).map word).map BitVec.toNat).sum =
      (js.map fun j => if out j then 0 else (word j).toNat).sum := by
  rw [List.sum_map_ite, List.map_map]
  simp [Function.comp_def]

/-- The words of a sum with word `k` left out, and then word `k`, are all its words. -/
theorem accSum_words (acc : Half) (word : Nat → Half) {n k : Nat} (h : k < n) :
    accSum acc ((List.range n).map word) =
      accAdd (accSum acc (((List.range n).filter (· != k)).map word)) (word k) := by
  have split : (List.range n).Perm ((List.range n).filter (· != k) ++ [k]) := by
    rw [← List.nodup_range.erase_eq_filter]
    exact (List.perm_cons_erase (List.mem_range.mpr h)).trans (List.perm_append_singleton ..).symm
  rw [accSum_perm acc (split.map word), List.map_append, accSum_append]
  rfl

/-! ### CS.ADDR and CS.ADDR.S (R213, R217) -/

theorem State.rangeWord_toNat (s : State) (start len j : Nat) : (s.rangeWord start len j).toNat =
    if 4 * j + 4 ≤ len then s.nbe (start + 4 * j) 4 else s.nbe (start + 4 * j) 2 * 256 := by
  have four := s.nbe_lt (start + 4 * j) 4
  have two := s.nbe_lt (start + 4 * j) 2
  rw [State.rangeWord]
  split
  · rw [BitVec.toNat_ofNat, Nat.mod_eq_of_lt (by omega)]
  · rw [BitVec.toNat_ofNat, Nat.mod_eq_of_lt (by omega)]

theorem State.rangeWords_sum (s : State) (skip : Bool) (start len k : Nat) :
    ((s.rangeWords skip start len k).map BitVec.toNat).sum =
      ((List.range ((len + 3) / 4)).map fun j =>
        if skip = true ∧ start + 4 * j = k then 0
        else if 4 * j + 4 ≤ len then s.nbe (start + 4 * j) 4
        else s.nbe (start + 4 * j) 2 * 256).sum := by
  rw [State.rangeWords, sum_leavingOut]
  simp only [State.rangeWord_toNat, Bool.and_eq_true, beq_iff_eq]

/-- The checks of R217 in their order. -/
def State.addrChecks (s : State) (skip : Bool) (start len k : Nat) : List (Bool × CmdError) :=
  [(s.frameTooLong, .badOperand), (decide (start + len > 2 * s.frameLen.toNat), .outOfRange),
   (decide (len % 2 = 1), .oddLength),
   (skip && decide (k < start ∨ k ≥ start + len ∨ (k - start) % 4 ≠ 0), .badOperand)]

theorem State.addrChecks_pass {s : State} {skip : Bool} {start len k : Nat}
    (fits : s.frameLen.toNat ≤ s.params.frameBytes) (inside : start + len ≤ 2 * s.frameLen.toNat)
    (even : len % 2 = 0) (word : skip = true → start ≤ k ∧ k < start + len ∧ (k - start) % 4 = 0) :
    firstError (s.addrChecks skip start len k) = none := by
  simpa [firstError_eq_none_iff, State.addrChecks, State.frameTooLong, fits, inside, even,
    Nat.dvd_iff_mod_eq_zero] using word

theorem exec_csAddr_eq (skip : Bool) (s : State) :
    exec (.csAddr skip) s = finish (if skip then 0x00000122#32 else 0x00000022#32)
      (Result.afterChecks (s.addrChecks skip s.argStart.toNat s.argLen.toNat s.argSkip.toNat) s (.done { s with
        acc := accSum s.acc (s.rangeWords skip s.argStart.toNat s.argLen.toNat s.argSkip.toNat) })) := by
  simp only [State.addrChecks, State.frameTooLong, Result.afterChecks_cons, Result.afterChecks_nil, Bool.and_eq_true,
    decide_eq_true_eq]
  cases skip <;> rfl

/-- Settles O17: CS.ADDR is its four ordered checks, and then the closed form of the words of the range. -/
theorem csAddrFollowsItsRule : Obligations.CsAddrFollowsItsRule := by
  unfold Obligations.CsAddrFollowsItsRule
  rintro s skip start len k rfl rfl rfl
  rw [exec_csAddr_eq]
  refine ⟨fun fits inside even word => ?_, fun e failed => finish_afterChecks_of_error failed ..⟩
  rw [finish_afterChecks_of_none (State.addrChecks_pass fits inside even word), accSum_eq, State.rangeWords_sum]

/-! ### The pseudo-header (R218, R220, R221) -/

theorem PhRegs.words_sum (ph : PhRegs) : (ph.words.map BitVec.toNat).sum =
    ph.w0.toNat + ph.w1.toNat + ph.w2.toNat + ph.w3.toNat + ph.w4.toNat + ph.w5.toNat := by
  simp only [PhRegs.words, List.map_cons, List.map_nil, List.sum_cons, List.sum_nil]
  omega

theorem exec_csAddph_of_valid {s : State} (phV : s.status.phV = true) :
    exec .csAddph s = .next ({ s with acc := accSum s.acc s.ph.words }.afterSuccess s.status) := by
  rw [exec, execCsAddph, if_neg (by simp [phV])]
  rfl

theorem exec_csAddph_of_invalid {s : State} (phV : s.status.phV = false) :
    exec .csAddph s = .next (s.afterFailure s.status 0x00000023#32 .notDecoded) := by
  rw [exec, execCsAddph, if_pos phV]
  rfl

/-- Settles O18: the six words add up to the sum that the closed form is of. -/
theorem csAddphFollowsItsRule : Obligations.CsAddphFollowsItsRule := by
  unfold Obligations.CsAddphFollowsItsRule
  refine fun s => ⟨fun phV => ?_, exec_csAddph_of_invalid⟩
  rw [exec_csAddph_of_valid phV, accSum_eq, PhRegs.words_sum]

/-- The halves of the addresses as numbers (R220). -/
theorem State.phFields_eq (s : State) : s.phFields = {
    w0 := BitVec.ofNat 16 (s.ip.src.toNat / 2 ^ 16)
    w1 := BitVec.ofNat 16 (s.ip.src.toNat % 2 ^ 16)
    w2 := BitVec.ofNat 16 (s.ip.dst.toNat / 2 ^ 16)
    w3 := BitVec.ofNat 16 (s.ip.dst.toNat % 2 ^ 16)
    w4 := BitVec.ofNat 16 s.ip.proto.toNat
    w5 := s.tcp.segLen } := by
  have low (n : Nat) : BitVec.ofNat 16 (n / 2 ^ 0) = BitVec.ofNat 16 (n % 2 ^ 16) := by
    apply BitVec.eq_of_toNat_eq
    rw [BitVec.toNat_ofNat, BitVec.toNat_ofNat, Nat.mod_mod, pow_zero, Nat.div_one]
  simp only [State.phFields, extractLsb'_eq_ofNat_div, low, BitVec.ofNat_toNat]

/-- Settles O19: the rule of PH.BUILD has the one check, on the state with its invalidation set cleared. -/
theorem phBuildFollowsItsRule : Obligations.PhBuildFollowsItsRule := by
  unfold Obligations.PhBuildFollowsItsRule
  intro s
  rw [← State.phFields_eq, exec, execPhBuild]
  obtain ⟨invalid, rule⟩ | ⟨valid, rule⟩ := phBuildBody_cases s
  · rw [rule]
    exact ⟨fun tcpV => (nomatch invalid.symm.trans tcpV), fun _ => rfl⟩
  · rw [rule]
    exact ⟨fun _ => rfl, fun tcpV => (nomatch valid.symm.trans tcpV)⟩

/-! ### CHK.IP and CHK.TCP (R222 to R225) -/

/-- The three ways a check ends, for a rule whose one check is a valid bit: with its commit `t`, with the frame-length
error in the state it began in, or with NotDecoded in the state `u` that it leaves. -/
theorem finish_validCheck {body : State → Result} {valid : Bool} {s u t : State}
    (rule : body s = if valid = false then .failed .notDecoded u else .done t) (c : Word) :
    (s.frameLen.toNat ≤ s.params.frameBytes → valid = true →
      finish c (checkFrameLen body s) = .next (t.afterSuccess t.status)) ∧
    (s.frameTooLong = true → finish c (checkFrameLen body s) = .next (s.afterFailure s.status c .badOperand)) ∧
    (s.frameTooLong = false → valid = false →
      finish c (checkFrameLen body s) = .next (u.afterFailure u.status c .notDecoded)) := by
  have rule' : body s = Result.afterChecks [(!valid, .notDecoded)] u (.done t) := by
    rw [rule]
    cases valid <;> rfl
  obtain ⟨done, tooLong, failed⟩ := finish_checkFrameLen_afterChecks rule' c
  refine ⟨fun fits h => done fits ?_, tooLong, fun fits h => failed fits _ ?_⟩
  · rw [h]; rfl
  · rw [h]; rfl

theorem chkIpBody_eq_ite (s : State) : chkIpBody s =
    if s.status.ipV = false then .failed .notDecoded (s.invalidate .chkIp)
    else .done { s with
      acc := s.ipSum, csumRes := checksumOf s.ipSum, ipCsumCalc := checksumOf s.ipSum
      status := { s.status with ipCkV := true, ipOk := checksumOf s.ipSum == s.ip.csum, frameV := false } } :=
  rfl

theorem chkTcpBody_eq_ite (s : State) : chkTcpBody s =
    if s.status.phV = false then .failed .notDecoded (s.invalidate .chkTcp)
    else .done { s with
      acc := s.tcpSum, csumRes := checksumOf s.tcpSum, tcpCsumCalc := checksumOf s.tcpSum
      status := { s.status with tcpCkV := true, tcpOk := checksumOf s.tcpSum == s.tcp.csum, frameV := false } } :=
  rfl

theorem State.ipHeaderWords_sum (s : State) (p : Nat) : ((s.ipHeaderWords p).map BitVec.toNat).sum =
    (([0, 1, 2, 3, 4, 6, 7, 8, 9] : List Nat).map fun k => s.be (p + 2 * k) 2).sum := by
  have nine : (List.range 10).filter (fun k => k != 5) = [0, 1, 2, 3, 4, 6, 7, 8, 9] := by decide
  rw [State.ipHeaderWords, nine, List.map_map]
  exact congrArg List.sum (List.map_congr_left fun k _ => s.be16_toNat (p + 2 * k))

theorem State.segmentWords_sum (s : State) (t len : Nat) : ((s.segmentWords t len).map BitVec.toNat).sum =
    ((List.range ((len + 1) / 2)).map fun j =>
      if j = 8 then 0
      else (s.octet (t + 2 * j)).toNat * 256 +
        if 2 * j + 1 < len then (s.octet (t + 2 * j + 1)).toNat else 0).sum := by
  refine (sum_leavingOut (· == 8) ..).trans ?_
  simp only [State.segmentWord_toNat, beq_iff_eq]

theorem State.ipSum_toNat (s : State) : s.ipSum.toNat = onesSum
    (([0, 1, 2, 3, 4, 6, 7, 8, 9] : List Nat).map fun k => s.be (s.eth.payOff.toNat + 2 * k) 2).sum := by
  rw [State.ipSum, accSum_toNat, State.ipHeaderWords_sum]
  exact congrArg onesSum (Nat.zero_add _)

theorem State.tcpSum_toNat (s : State) : s.tcpSum.toNat = onesSum
    ((s.ph.words.map BitVec.toNat).sum +
      ((s.segmentWords s.tcp.segOff.toNat s.tcp.segLen.toNat).map BitVec.toNat).sum) := by
  rw [State.tcpSum, accSum_toNat, accSum_toNat, onesSum_onesSum_add, Nat.add_assoc]
  exact congrArg onesSum (Nat.zero_add _)

/-- Settles O20: CHK.IP leaves the closed form of its nine words and that form's complement. -/
theorem chkIpFollowsItsRule : Obligations.ChkIpFollowsItsRule := by
  unfold Obligations.ChkIpFollowsItsRule
  rintro s p total c rfl rfl rfl
  rw [← State.ipSum_toNat, ← checksumOf_eq, BitVec.ofNat_toNat, BitVec.setWidth_eq]
  exact finish_validCheck (chkIpBody_eq_ite s) (encode .chkIp)

/-- Settles O21: adding the pseudo-header first and then the segment leaves the closed form of both together. -/
theorem chkTcpFollowsItsRule : Obligations.ChkTcpFollowsItsRule := by
  unfold Obligations.ChkTcpFollowsItsRule
  rintro s t len total c rfl rfl rfl rfl
  rw [← PhRegs.words_sum, ← State.segmentWords_sum, ← State.tcpSum_toNat, ← checksumOf_eq, BitVec.ofNat_toNat,
    BitVec.setWidth_eq]
  exact finish_validCheck (chkTcpBody_eq_ite s) (encode .chkTcp)

/-! ### A checksum that is right completes its sum (R227) -/

/-- The segment of a decoded frame: where it lies, and that it holds its header (R185 to R188). -/
theorem State.Sound.segment {s : State} (sound : s.Sound) (tcpV : s.status.tcpV = true) :
    s.tcp.segOff.toNat + s.tcp.segLen.toNat ≤ s.frameLen.toNat ∧ 20 ≤ s.tcp.segLen.toNat ∧
      s.tcp.csum = s.be16 (s.tcp.segOff.toNat + 16) := by
  obtain ⟨⟨-, inside, header, -⟩, fields⟩ := sound.current.tcp tcpV
  have frameLen := s.frameLen.isLt
  have off : s.tcp.segOff = s.ip.payOff := by rw [fields]; simp [State.tcpFields]
  have len : s.tcp.segLen.toNat = s.segmentLen := by
    rw [fields]
    simp only [State.tcpFields, BitVec.toNat_ofNat, State.segmentLen]
    omega
  refine ⟨?_, ?_, ?_⟩
  · rw [off, len]; exact inside
  · rw [len]; exact header
  · rw [off, fields]; rfl

/-- A whole word of the segment is the half word of the frame (R224). -/
theorem State.segmentWord_eq_be16 (s : State) {t len j : Nat} (whole : 2 * j + 1 < len) :
    s.segmentWord t len j = s.be16 (t + 2 * j) := by
  apply BitVec.eq_of_toNat_eq
  rw [State.segmentWord_toNat, if_pos whole, State.be16_toNat]
  simp [State.be, bigEndian_succ]

/-- Settles O38: the words of each sum are those its command adds and the embedded checksum, which is the complement of
what the command left. -/
theorem correctChecksumsSumToAllOnes : Obligations.CorrectChecksumsSumToAllOnes := by
  unfold Obligations.CorrectChecksumsSumToAllOnes
  intro s sound
  refine ⟨fun ipOk => ?_, fun tcpOk => ?_⟩
  · have ipCkV := sound.chain.ipOk ipOk
    have ipV := sound.chain.ipCk ipCkV
    obtain ⟨-, eth⟩ := sound.current.eth (sound.chain.ip ipV)
    obtain ⟨-, ip⟩ := sound.current.ip ipV
    obtain ⟨computed, same⟩ := sound.current.ipCk ipCkV
    have payOff : s.eth.payOff.toNat = 14 := by rw [eth]; rfl
    have csum : s.be16 (14 + 2 * 5) = checksumOf s.ipSum := by
      rw [ipOk, computed] at same
      rw [eq_of_beq same.symm, ip, payOff]
      rfl
    rw [accSum_words 0 (fun k => s.be16 (14 + 2 * k)) (k := 5) (by decide), csum, State.ipSum, payOff]
    exact accAdd_checksumOf _
  · have tcpCkV := sound.chain.tcpOk tcpOk
    obtain ⟨-, header, field⟩ := sound.segment (sound.chain.ph (sound.chain.tcpCk tcpCkV))
    obtain ⟨computed, same⟩ := sound.current.tcpCk tcpCkV
    have csum : s.segmentWord s.tcp.segOff.toNat s.tcp.segLen.toNat 8 = checksumOf s.tcpSum := by
      rw [tcpOk, computed] at same
      rw [eq_of_beq same.symm, field]
      exact s.segmentWord_eq_be16 (by omega)
    rw [accSum_words _ _ (k := 8) (by omega), csum]
    exact accAdd_checksumOf _

/-! ### The raw range command over a segment (R213, R217, R224) -/

/-- Words of four nibbles from an even nibble are the words of the octets, and two nibbles at the end are the padded
last octet. -/
theorem State.rangeWord_segment (s : State) (t len j : Nat) :
    s.rangeWord (2 * t) (2 * len) j = s.segmentWord t len j := by
  have nibble : 2 * t + 4 * j = 2 * (t + 2 * j) := by omega
  have octets : s.be (t + 2 * j) 2 = (s.octet (t + 2 * j)).toNat * 256 + (s.octet (t + 2 * j + 1)).toNat := by
    simp [State.be, bigEndian_succ]
  apply BitVec.eq_of_toNat_eq
  rw [State.rangeWord_toNat, State.segmentWord_toNat, nibble, s.nbe_octet, s.nbe_eq_be _ 2, octets]
  split <;> split <;> omega

theorem State.rangeWords_segment (s : State) (t len : Nat) :
    s.rangeWords true (2 * t) (2 * len) (2 * t + 32) = s.segmentWords t len := by
  have count : (2 * len + 3) / 4 = (len + 1) / 2 := by omega
  have skipped (j : Nat) : (!(true && 2 * t + 4 * j == 2 * t + 32)) = (j != 8) := by
    rw [Bool.true_and, bne, Bool.not_inj_iff, Bool.eq_iff_iff, beq_iff_eq, beq_iff_eq]
    omega
  rw [State.rangeWords, State.segmentWords, count, funext skipped, funext (s.rangeWord_segment t len)]

/-- Settles O39: the segment lies in the frame and holds the checksum's word, so no check of CS.ADDR.S fails, and the
words it adds are those of CHK.TCP. -/
theorem rawRangeReproducesTheTcpCheck : Obligations.RawRangeReproducesTheTcpCheck := by
  unfold Obligations.RawRangeReproducesTheTcpCheck
  intro s a t sound phV start len skip added checked
  have tcpV := sound.chain.ph phV
  have fits := sound.chain.frameLen (sound.chain.ip (sound.chain.tcp tcpV))
  obtain ⟨inside, header, -⟩ := sound.segment tcpV
  obtain ⟨done, -⟩ := finish_validCheck (chkTcpBody_eq_ite s) (encode .chkTcp)
  cases (done fits phV).symm.trans checked
  cases (exec_csAddph_of_valid (s := { s with acc := 0 }) phV).symm.trans added
  have pass := State.addrChecks_pass (s := s) (skip := true) (start := s.argStart.toNat) (len := s.argLen.toNat)
    (k := s.argSkip.toNat) fits (by omega) (by omega) fun _ => by omega
  refine ⟨_, (exec_csAddr_eq true _).trans (finish_afterChecks_of_none pass ..), rfl, ?_⟩
  have words := s.rangeWords_segment s.tcp.segOff.toNat s.tcp.segLen.toNat
  rw [← skip, ← len, ← start] at words
  exact congrArg (accSum (accSum 0 s.ph.words)) words

end Sys2Proof.Machine
end

section
/-! The family `43_frame_and_control.md`: DECODE is its six commands in sequence (R261), and what it writes is a value
that depends on the frame alone (R261, R263, R264). -/

namespace Sys2Proof.Machine

/-! ### DECODE and its commands in sequence (R261) -/

/-- A rule's end with `f` applied to its state. -/
def Result.map (f : State → State) : Result → Result
  | .done s => .done (f s)
  | .failed e s => .failed e (f s)

/-- The recording at a rule's own end overwrites that of a success before it. -/
theorem Result.map_completeDone_complete (r : Result) (c : Word) :
    (r.map State.completeDone).complete c = r.complete c := by
  cases r <;> rfl

/-- No stage reads or writes what the recording of a success writes. -/
theorem Stage.body_completeDone (st : Stage) (s : State) :
    st.body s.completeDone = (st.body s).map State.completeDone := by
  cases st <;>
    simp only [Stage.body, decEthBody, decIpBody, decTcpBody, phBuildBody, chkIpBody, chkTcpBody,
      apply_ite (Result.map State.completeDone)] <;> rfl

section
variable {s : State} (fits : s.frameLen.toNat ≤ s.params.frameBytes)
include fits

theorem exec_stageCommand (st : Stage) :
    exec st.command s = .next ((st.body s).complete (encode st.command)) := by
  have checked : checkFrameLen st.body s = st.body s := checkFrameLen_of_le fits
  cases st with
  | phBuild => rfl
  | decEth | decIp | decTcp | chkIp | chkTcp => exact congrArg (finish _) checked

theorem exec_stageCommand_completeDone (st : Stage) : exec st.command s.completeDone = exec st.command s := by
  rw [exec_stageCommand fits, exec_stageCommand (s := s.completeDone) fits, st.body_completeDone,
    Result.map_completeDone_complete]

/-- After a success, commands run one by one end as their stages do; `w` is the word of the command that fails. -/
theorem runStopped_completeDone (stages : List Stage) :
    ∃ w, runStopped (stages.map Stage.command) s.completeDone = .next ((runStages stages s).complete w) := by
  induction stages generalizing s with
  | nil => exact ⟨0, rfl⟩
  | cons st rest ih =>
    rw [List.map_cons, runStopped, exec_stageCommand_completeDone fits, exec_stageCommand fits, runStages_cons]
    obtain ⟨e, failed⟩ | ⟨t, done, commit⟩ := st.body_ends fun _ => fits
    · rw [failed]
      exact ⟨_, if_neg e.code_ne_zero⟩
    · rw [done]
      exact ih (s := { t with stage := some st }) (by cases commit <;> exact fits)

theorem runStopped_order :
    ∃ w, runStopped (Stage.order.map Stage.command) s = .next ((runStages Stage.order s).complete w) := by
  obtain ⟨w, run⟩ := runStopped_completeDone fits Stage.order
  refine ⟨w, Eq.trans ?_ run⟩
  rw [Stage.order, List.map_cons, runStopped, runStopped, exec_stageCommand_completeDone fits]

end

/-- DECODE begins with the invalidation that its first stage begins with too. -/
theorem runStages_order_invalidate (s : State) :
    runStages Stage.order (s.invalidate .decEth) = runStages Stage.order s := rfl

theorem runStages_errCmd {stages : List Stage} {s : State} {r : Result} (run : runStages stages s = r)
    (len : s.frameLen.toNat ≤ s.params.frameBytes) : r.state.errCmd = s.errCmd :=
  runStages_keeps (P := fun u => u.errCmd = s.errCmd) (fun _ _ h => h) (fun _ _ _ h c => by cases c <;> exact h)
    (fun _ _ h => h) run len rfl

/-- The end `u` of the commands in sequence as DECODE records it (R261): FRAME_V on success, where ERR_CMD is what it
was before; its own word on a failure. -/
def State.asDecode (u : State) (errCmd : Word) : State :=
  { u with
    status := { u.status with frameV := u.status.frameV || decide (u.status.errCode = 0#4) }
    errCmd := if u.status.errCode = 0#4 then errCmd else 0x00000030#32 }

theorem State.completeError_asDecode (s : State) (c errCmd : Word) (e : CmdError) :
    (s.completeError c e).asDecode errCmd = s.completeError (encode .decodeFrame) e := by
  have failed : (s.completeError c e).status.errCode ≠ 0#4 := e.code_ne_zero
  rw [State.asDecode, if_neg failed, decide_eq_false failed, Bool.or_false]
  rfl

theorem State.completeDone_asDecode (s : State) :
    s.completeDone.asDecode s.errCmd = (s.withStatus { s.status with frameV := true }).completeDone := by
  have succeeded : s.completeDone.status.errCode = 0#4 := rfl
  rw [State.asDecode, if_pos succeeded, decide_eq_true succeeded, Bool.or_true]
  rfl

/-- Settles O23: a frame that is too long fails the first command and DECODE alike; otherwise the commands end in the
state that the stages of DECODE end in, and only its recording differs. -/
theorem decodeEqualsItsCommandsInSequence : Obligations.DecodeEqualsItsCommandsInSequence := by
  unfold Obligations.DecodeEqualsItsCommandsInSequence
  intro s
  obtain ⟨tooLong, check⟩ | ⟨fits, check⟩ := checkFrameLen_cases decodeBody s
  · refine ⟨s.completeError (encode .decEth) .badOperand, ?_, ?_⟩
    · rw [runStopped, exec, execDecEth, checkFrameLen_of_gt tooLong]
      rfl
    · rw [exec, execDecodeFrame, check]
      exact congrArg _ (State.completeError_asDecode ..).symm
  · obtain ⟨w, run⟩ := runStopped_order fits
    refine ⟨_, run, ?_⟩
    rw [exec, execDecodeFrame, check, decodeBody, runStages_order_invalidate]
    cases stages : runStages Stage.order s with
    | done t =>
      have errCmd : t.errCmd = s.errCmd := runStages_errCmd stages fits
      rw [← errCmd]
      exact congrArg _ t.completeDone_asDecode.symm
    | failed e t => exact congrArg _ (State.completeError_asDecode ..).symm

/-! ### What DECODE makes of a frame, as a value -/

/-- How far DECODE comes in a frame, and the registers of the stages that commit. -/
inductive Decoding where
  /-- FRAME_LEN is above FRAME_BYTES. -/
  | tooLong
  /-- DEC.ETH fails. -/
  | ethFails (e : CmdError)
  /-- DEC.IP fails after DEC.ETH has committed. -/
  | ipFails (e : CmdError) (eth : EthRegs)
  /-- DEC.TCP fails after DEC.ETH and DEC.IP have committed. -/
  | tcpFails (e : CmdError) (eth : EthRegs) (ip : IpRegs)
  /-- All six stages commit; `ipSum` and `tcpSum` are the sums of the two checks. -/
  | complete (eth : EthRegs) (ip : IpRegs) (tcp : TcpRegs) (ph : PhRegs) (ipSum tcpSum : Half)

/-- The completion of DECODE over the state it finds. -/
def Decoding.write (d : Decoding) (s : State) : State :=
  match d with
  | .tooLong => s.completeError 0x00000030#32 .badOperand
  | .ethFails e => (s.withStatus s.status.withoutFrame).completeError 0x00000030#32 e
  | .ipFails e eth =>
    { s with eth := eth, status := { s.status.withoutFrame with ethV := true } }.completeError 0x00000030#32 e
  | .tcpFails e eth ip =>
    { s with
      eth := eth, ip := ip
      status := { s.status.withoutFrame with ethV := true, ipV := true } }.completeError 0x00000030#32 e
  | .complete eth ip tcp ph ipSum tcpSum =>
    { s with
      eth := eth, ip := ip, tcp := tcp, ph := ph
      ipCsumCalc := checksumOf ipSum, tcpCsumCalc := checksumOf tcpSum
      acc := tcpSum, csumRes := checksumOf tcpSum
      status := { s.status with
        ethV := true, ipV := true, tcpV := true, phV := true, ipCkV := true, tcpCkV := true, frameV := true
        ipOk := checksumOf ipSum == ip.csum, tcpOk := checksumOf tcpSum == tcp.csum } }.completeDone

/-- The checks of DEC.IP on the header at octet 14, less the first one, of ETH_V (R182). -/
def State.headerChecks (s : State) : List (Bool × CmdError) :=
  (s.ipChecks 14 (s.ihlAt 14).toNat).tail

/-- The checks of DEC.TCP on the segment that the IP registers give, less the first one, of IP_V (R194). -/
def State.segmentChecks (s : State) (ip : IpRegs) : List (Bool × CmdError) :=
  (s.tcpChecks ip.payOff.toNat (s.doffAt ip.payOff.toNat).toNat (ip.totlen.toNat - ip.hlen.toNat)).tail

/-- The state with the registers of the three layers of its frame. -/
def State.withLayers (s : State) : State :=
  let ip := s.ipFields 14
  { s with
    eth := s.ethFields
    ip := ip
    tcp := s.tcpFields ip.payOff.toNat (ip.totlen.toNat - ip.hlen.toNat) }

/-- The end of PH.BUILD, CHK.IP and CHK.TCP over the registers of the three layers. -/
def State.completeDecoding (s : State) : Decoding :=
  .complete s.eth s.ip s.tcp s.phFields s.ipSum
    (accSum (accSum 0 s.phFields.words) (s.segmentWords s.tcp.segOff.toNat s.tcp.segLen.toNat))

/-- What DECODE makes of the frame of a state. -/
def State.decoding (s : State) : Decoding :=
  if s.frameTooLong then .tooLong
  else match firstError s.ethChecks with
    | some e => .ethFails e
    | none => match firstError s.headerChecks with
      | some e => .ipFails e s.ethFields
      | none => match firstError (s.segmentChecks (s.ipFields 14)) with
        | some e => .tcpFails e s.ethFields (s.ipFields 14)
        | none => s.withLayers.completeDecoding

/-! ### DECODE writes that value -/

/-- The state after the stage DEC.ETH. -/
def State.afterDecEth (s : State) : State :=
  { s with eth := s.ethFields, status := { s.status.withoutFrame with ethV := true }, stage := some .decEth }

/-- The state after the stage DEC.IP. -/
def State.afterDecIp (s : State) : State :=
  { s with
    ip := s.ipFields s.eth.payOff.toNat, status := { s.status.withoutIp with ipV := true }, stage := some .decIp }

/-- The state after the stage DEC.TCP. -/
def State.afterDecTcp (s : State) : State :=
  { s with
    tcp := s.tcpFields s.ip.payOff.toNat s.segmentLen
    status := { s.status.withoutTcp with tcpV := true }
    stage := some .decTcp }

theorem runStages_cons_afterChecks {st : Stage} {checks : List (Bool × CmdError)} {s u t : State}
    (rule : st.body s = Result.afterChecks checks u (.done t)) (rest : List Stage) :
    runStages (st :: rest) s = Result.afterChecks checks u (runStages rest { t with stage := some st }) := by
  rw [runStages_cons, rule, Result.afterChecks, Result.afterChecks]
  cases firstError checks <;> rfl

/-- The checks of ETH_V and IP_V pass, because the stage before has set the bit. -/
theorem runStages_order_eq (s : State) : runStages Stage.order s =
    Result.afterChecks s.ethChecks (s.invalidate .decEth)
      (Result.afterChecks s.headerChecks (s.afterDecEth.invalidate .decIp)
        (Result.afterChecks (s.segmentChecks (s.ipFields 14)) (s.afterDecEth.afterDecIp.invalidate .decTcp)
          (runStages [.phBuild, .chkIp, .chkTcp] s.afterDecEth.afterDecIp.afterDecTcp))) := by
  rw [Stage.order, runStages_cons_afterChecks (st := .decEth) (decEthBody_eq_afterChecks s),
    runStages_cons_afterChecks (st := .decIp) (decIpBody_eq_afterChecks _),
    runStages_cons_afterChecks (st := .decTcp) (decTcpBody_eq_afterChecks _)]
  rfl

/-- No check of the last three stages can fail after the first three. -/
theorem runStages_sums {s : State} (ipV : s.status.ipV = true) (tcpV : s.status.tcpV = true) :
    runStages [.phBuild, .chkIp, .chkTcp] s = .done { s with
      ph := s.phFields
      ipCsumCalc := checksumOf s.ipSum
      tcpCsumCalc := checksumOf { s with ph := s.phFields }.tcpSum
      acc := { s with ph := s.phFields }.tcpSum
      csumRes := checksumOf { s with ph := s.phFields }.tcpSum
      status := { s.status with
        phV := true, ipCkV := true, tcpCkV := true, frameV := false
        ipOk := checksumOf s.ipSum == s.ip.csum
        tcpOk := checksumOf { s with ph := s.phFields }.tcpSum == s.tcp.csum }
      stage := some .chkTcp } := by
  have phBuild : phBuildBody s =
      .done { s with ph := s.phFields, status := { s.status.withoutPh with phV := true } } := by
    rw [phBuildBody]
    exact if_neg (by simp [tcpV])
  rw [runStages_cons, Stage.body, phBuild, Result.andThen_done, runStages_cons, Stage.body, chkIpBody_eq_ite,
    if_neg (by simp [ipV])]
  rfl

theorem State.not_frameTooLong {s : State} (fits : s.frameLen.toNat ≤ s.params.frameBytes) :
    ¬ s.frameTooLong = true := by
  simpa [State.frameTooLong] using fits

theorem exec_decodeFrame (s : State) : exec .decodeFrame s = .next (s.decoding.write s) := by
  rw [exec, execDecodeFrame, finish, State.decoding]
  obtain ⟨tooLong, check⟩ | ⟨fits, check⟩ := checkFrameLen_cases decodeBody s
  · have frameTooLong : s.frameTooLong = true := decide_eq_true tooLong
    rw [check, if_pos frameTooLong]
    rfl
  · rw [check, if_neg (State.not_frameTooLong fits), decodeBody, runStages_order_invalidate, runStages_order_eq,
      Result.afterChecks, Result.afterChecks, Result.afterChecks]
    cases firstError s.ethChecks with
    | some e => rfl
    | none =>
      cases firstError s.headerChecks with
      | some e => rfl
      | none =>
        cases firstError (s.segmentChecks (s.ipFields 14)) with
        | some e => rfl
        | none =>
          dsimp only
          rw [runStages_sums rfl rfl]
          rfl

/-! ### The value depends on the frame alone: a check reads only octets that the checks before it have found inside -/

theorem State.ethChecks_pass_iff (s : State) :
    firstError s.ethChecks = none ↔ 14 ≤ s.frameLen.toNat ∧ s.be 12 2 = 0x0800 := by
  simp [firstError_eq_none_iff, State.ethChecks]

theorem State.headerChecks_pass_iff (s : State) : firstError s.headerChecks = none ↔ s.ipAccepts 14 := by
  have long : (20 : Int) ≤ s.frameLen.toNat - 14 ↔ 14 + 20 ≤ s.frameLen.toNat := by omega
  simp [firstError_eq_none_iff, State.headerChecks, State.ipChecks, State.ipAccepts, State.ipHlenAt, long]

theorem State.segmentChecks_pass_iff (s : State) (ip : IpRegs) : firstError (s.segmentChecks ip) = none ↔
    s.tcpAccepts ip.payOff.toNat ip.totlen.toNat ip.hlen.toNat := by
  simp only [firstError_eq_none_iff, State.segmentChecks, State.tcpChecks, State.tcpAccepts, State.tcpHlenAt,
    List.tail_cons, List.forall_mem_cons, List.not_mem_nil, false_imp_iff, implies_true,
    and_true, decide_eq_false_iff_not]
  omega

section
variable {s t : State} (h : s.sameFrame t)
include h

theorem State.sameFrame.frameTooLong_eq : s.frameTooLong = t.frameTooLong := by
  rw [State.frameTooLong, State.frameTooLong, h.1, h.frameLen_eq]

theorem State.sameFrame.firstError_ethChecks : firstError s.ethChecks = firstError t.ethChecks := by
  simp only [State.ethChecks, firstError, decide_eq_true_eq]
  refine ite_congr (by rw [h.frameLen_eq]) (fun _ => rfl) fun short => ?_
  rw [h.be_eq (by rw [h.frameLen_eq]; omega)]

theorem State.sameFrame.firstError_headerChecks : firstError s.headerChecks = firstError t.headerChecks := by
  simp only [State.headerChecks, State.ipChecks, List.tail_cons, firstError, decide_eq_true_eq, h.frameLen_eq]
  refine ite_congr rfl (fun _ => rfl) fun short => ?_
  have inside : 14 + 20 ≤ s.frameLen.toNat := by rw [h.frameLen_eq]; omega
  rw [h.octet_eq (by omega), h.ihlAt_eq (by omega)]

theorem State.sameFrame.firstError_segmentChecks (ip : IpRegs) :
    firstError (s.segmentChecks ip) = firstError (t.segmentChecks ip) := by
  simp only [State.segmentChecks, State.tcpChecks, List.tail_cons, firstError, decide_eq_true_eq, h.frameLen_eq]
  refine ite_congr rfl (fun _ => rfl) fun nonneg => ite_congr rfl (fun _ => rfl) fun whole =>
    ite_congr rfl (fun _ => rfl) fun header => ?_
  rw [h.doffAt_eq (by rw [h.frameLen_eq]; omega)]

theorem State.sameFrame.completeDecoding_eq (eth : s.eth = t.eth) (ip : s.ip = t.ip) (tcp : s.tcp = t.tcp)
    (header : s.eth.payOff.toNat + 20 ≤ s.frameLen.toNat)
    (segment : s.tcp.segOff.toNat + s.tcp.segLen.toNat ≤ s.frameLen.toNat) :
    s.completeDecoding = t.completeDecoding := by
  have ph : s.phFields = t.phFields := by rw [State.phFields, State.phFields, ip, tcp]
  rw [State.completeDecoding, State.completeDecoding, State.ipSum, State.ipSum, h.ipHeaderWords_eq header,
    h.segmentWords_eq segment, ph, eth, ip, tcp]

/-- The layers of an accepted frame and their sums lie inside the frame. -/
theorem State.sameFrame.withLayers_completeDecoding_eq (long : 14 ≤ s.frameLen.toNat) (header : s.ipAccepts 14)
    (segment : s.tcpAccepts (s.ipFields 14).payOff.toNat (s.ipFields 14).totlen.toNat (s.ipFields 14).hlen.toNat) :
    s.withLayers.completeDecoding = t.withLayers.completeDecoding := by
  obtain ⟨ipHeader, -⟩ := header
  obtain ⟨-, whole, tcpHeader, -⟩ := segment
  have ip := h.ipFields_eq ipHeader
  have tcp : s.withLayers.tcp = t.withLayers.tcp := by
    rw [State.withLayers, State.withLayers, ← ip]
    exact h.tcpFields_eq (by omega)
  refine State.sameFrame.completeDecoding_eq (s := s.withLayers) (t := t.withLayers) h (h.ethFields_eq long) ip tcp
    ipHeader ?_
  simp only [State.withLayers, State.tcpFields, BitVec.toNat_ofNat]
  omega

theorem State.sameFrame.decoding_eq : s.decoding = t.decoding := by
  rw [State.decoding, State.decoding, h.frameTooLong_eq, h.firstError_ethChecks, h.firstError_headerChecks]
  refine ite_congr rfl (fun _ => rfl) fun _ => ?_
  cases ethChecks : firstError t.ethChecks with
  | some e => rfl
  | none =>
    obtain ⟨long, -⟩ := s.ethChecks_pass_iff.mp (h.firstError_ethChecks.trans ethChecks)
    rw [h.ethFields_eq long]
    cases headerChecks : firstError t.headerChecks with
    | some e => rfl
    | none =>
      have header := s.headerChecks_pass_iff.mp (h.firstError_headerChecks.trans headerChecks)
      rw [h.firstError_segmentChecks, h.ipFields_eq header.1]
      cases segmentChecks : firstError (t.segmentChecks (t.ipFields 14)) with
      | some e => rfl
      | none =>
        have segment := (s.segmentChecks_pass_iff _).mp ((h.firstError_segmentChecks _).trans segmentChecks)
        rw [← h.ipFields_eq header.1] at segment
        exact h.withLayers_completeDecoding_eq long header segment

end

/-! ### DECODE again, and DECODE of the same frame (R263, R264) -/

theorem Decoding.write_write (d : Decoding) (s : State) : d.write (d.write s) = d.write s := by
  cases d <;> rfl

theorem Decoding.write_sameFrame (d : Decoding) (s : State) : (d.write s).sameFrame s := by
  cases d <;> exact ⟨rfl, rfl, fun _ _ => rfl⟩

theorem decodeFrame_inv {s t : State} (h : exec .decodeFrame s = .next t) : t = s.decoding.write s :=
  Host.Outcome.next.inj (h.symm.trans (exec_decodeFrame s))

/-- Settles O24: DECODE leaves the frame, so a second one writes the same value over what the first has written. -/
theorem decodeTwiceChangesNothing : Obligations.DecodeTwiceChangesNothing := by
  unfold Obligations.DecodeTwiceChangesNothing
  intro s t h
  rw [decodeFrame_inv h, exec_decodeFrame, (s.decoding.write_sameFrame s).decoding_eq, Decoding.write_write]

theorem State.decoding_ne_tooLong {s : State} (fits : s.frameLen.toNat ≤ s.params.frameBytes) :
    s.decoding ≠ .tooLong := by
  rw [State.decoding, if_neg (State.not_frameTooLong fits)]
  split
  · nofun
  · split
    · nofun
    · split <;> nofun

/-- Settles O25: both states are written with the same value, which holds the registers of every stage whose valid bit
it sets, and on success ACC and CSUM_RES too. -/
theorem decodeDependsOnTheFrameAlone : Obligations.DecodeDependsOnTheFrameAlone := by
  unfold Obligations.DecodeDependsOnTheFrameAlone
  intro s s' t t' same h h'
  rw [decodeFrame_inv h, decodeFrame_inv h', ← same.decoding_eq]
  refine ⟨?_, fun fits => ?_⟩
  · cases s.decoding <;> rfl
  · have admitted := State.decoding_ne_tooLong fits
    cases d : s.decoding with
    | tooLong => exact absurd d admitted
    | ethFails e | ipFails e eth | tcpFails e eth ip => simp [Decoding.write, e.code_ne_zero]
    | complete => simp [Decoding.write]

/-! ### DECODE of a frame that passes every check (R261) -/

theorem State.be_four (s : State) (i : Nat) : s.be i 4 = s.be i 2 * 2 ^ 16 + s.be (i + 2) 2 := by
  simp only [State.be, bigEndian_succ, bigEndian_zero]
  ring_nf

theorem State.be32_high (s : State) (i : Nat) : (s.be32 i).extractLsb' 16 16 = s.be16 i := by
  have low := s.be_lt (i + 2) 2
  rw [extractLsb'_eq_ofNat_div, State.be32_toNat, s.be_four, State.be16]
  congr 1
  omega

theorem State.be32_low (s : State) (i : Nat) : (s.be32 i).extractLsb' 0 16 = s.be16 (i + 2) := by
  have low := s.be_lt (i + 2) 2
  apply BitVec.eq_of_toNat_eq
  rw [BitVec.extractLsb'_toNat, Nat.shiftRight_zero, State.be32_toNat, s.be_four, State.be16_toNat]
  omega

/-- No register of an accepted header that says where the segment lies is cut to its width. -/
theorem State.ipAccepts.segment_bounds {s : State} (h : s.ipAccepts 14) :
    (s.ipFields 14).payOff.toNat = 14 + s.ipHlenAt 14 ∧ (s.ipFields 14).totlen.toNat = s.be 16 2 ∧
      (s.ipFields 14).hlen.toNat = s.ipHlenAt 14 := by
  obtain ⟨-, -, -, inside⟩ := h
  have frameLen := s.frameLen.isLt
  have hlen := s.ipHlenAt_lt 14
  refine ⟨?_, s.be16_toNat 16, ?_⟩
  · rw [State.ipFields, BitVec.toNat_ofNat, Nat.mod_eq_of_lt (by omega)]
  · rw [State.ipFields, BitVec.toNat_ofNat, Nat.mod_eq_of_lt (by omega)]

section
variable {s : State} (header : s.ipAccepts 14)
include header

theorem State.ipAccepts.withLayers_tcp :
    s.withLayers.tcp = s.tcpFields (14 + s.ipHlenAt 14) (s.be 16 2 - s.ipHlenAt 14) := by
  obtain ⟨payOff, totlen, hlen⟩ := header.segment_bounds
  rw [State.withLayers, payOff, totlen, hlen]

/-- The pseudo-header as octets of the frame (R220). -/
theorem State.ipAccepts.withLayers_phFields : s.withLayers.phFields =
    ⟨s.be16 26, s.be16 28, s.be16 30, s.be16 32, 6, BitVec.ofNat 16 (s.be 16 2 - s.ipHlenAt 14)⟩ := by
  have proto : s.withLayers.ip.proto = 6#8 := header.2.1
  have src : s.withLayers.ip.src = s.be32 26 := rfl
  have dst : s.withLayers.ip.dst = s.be32 30 := rfl
  rw [State.phFields, header.withLayers_tcp, proto, src, dst, State.be32_high, State.be32_low, State.be32_high,
    State.be32_low]
  rfl

theorem State.ipAccepts.decoding_eq (eth : s.ethAccepts)
    (segment : s.tcpAccepts (14 + s.ipHlenAt 14) (s.be 16 2) (s.ipHlenAt 14)) :
    s.decoding = s.withLayers.completeDecoding := by
  obtain ⟨fits, frame⟩ := eth
  have segmentChecks : firstError (s.segmentChecks (s.ipFields 14)) = none := by
    obtain ⟨payOff, totlen, hlen⟩ := header.segment_bounds
    rw [State.segmentChecks_pass_iff, payOff, totlen, hlen]
    exact segment
  rw [State.decoding, if_neg (State.not_frameTooLong fits), s.ethChecks_pass_iff.mpr frame,
    s.headerChecks_pass_iff.mpr header, segmentChecks]

end

/-- Settles O22: every check passes, and no boundary of the segment is cut to the width of its register. -/
theorem decodeOfAGoodFrameCompletes : Obligations.DecodeOfAGoodFrameCompletes := by
  unfold Obligations.DecodeOfAGoodFrameCompletes
  rintro s t len totlen ph ipC tcpA tcpC rfl rfl rfl eth header segment rfl rfl rfl rfl
  rw [exec_decodeFrame, header.decoding_eq eth segment]
  obtain ⟨-, inside, -⟩ := segment
  have frameLen := s.frameLen.isLt
  have segOff : s.withLayers.tcp.segOff.toNat = 14 + s.ipHlenAt 14 := by
    rw [header.withLayers_tcp, State.tcpFields, BitVec.toNat_ofNat, Nat.mod_eq_of_lt (by omega)]
  have segLen : s.withLayers.tcp.segLen.toNat = s.be 16 2 - s.ipHlenAt 14 := by
    rw [header.withLayers_tcp, State.tcpFields, BitVec.toNat_ofNat, Nat.mod_eq_of_lt (by omega)]
  rw [State.completeDecoding, header.withLayers_phFields, segOff, segLen, header.withLayers_tcp]
  rfl

end Sys2Proof.Machine
end

section
/-! The family `60_exceptions.md`: the recording of a completion (R305), the errors that each command may raise and what
a failing command leaves (R301, R304), and the interrupt output (R319, R320). -/

namespace Sys2Proof.Machine

/-! ### The error codes (R301) -/

/-- Settles O26: each code is the one that the model gives its error. -/
theorem errorCodesAreThoseOfTheTable : Obligations.ErrorCodesAreThoseOfTheTable := by
  unfold Obligations.ErrorCodesAreThoseOfTheTable
  exact ⟨rfl, rfl, rfl⟩

/-! ### The recording of a completion (R305) -/

/-- A completion of any word, a reserved one too, is a rule's end recorded under that word. -/
theorem completeCommand_records (c : Word) (s : State) :
    ∃ r : Result, completeCommand c s = .next (r.complete c) ∧ ∃ i, CommandEnd s i r.state := by
  obtain ⟨-, reserved⟩ | ⟨i, command, runs⟩ := completeCommand_cases c s
  · exact ⟨.failed .illegalCommand s, reserved, .nop, .unchanged⟩
  · obtain ⟨r, completes, ends⟩ := exec_ends i s
    rw [encode_of_decode command] at completes
    exact ⟨r, runs.trans completes, i, ends⟩

theorem step_records {s u : State} {c : Word} (moves : s.engineDoes c u) :
    ∃ r : Result, step s = .next (r.complete c) ∧ ∃ i, CommandEnd u i r.state := by
  rw [step_of_engineDoes moves]
  exact completeCommand_records c u

/-- What every recording leaves, of a success or of an error. -/
theorem Result.complete_idle (r : Result) (c : Word) :
    (r.complete c).status.busy = false ∧ (r.complete c).status.done = true ∧ (r.complete c).pending = none := by
  cases r <;> exact ⟨rfl, rfl, rfl⟩

theorem runStages_err {stages : List Stage} {s : State} {r : Result} (run : runStages stages s = r)
    (len : s.frameLen.toNat ≤ s.params.frameBytes) : r.state.status.err = s.status.err :=
  runStages_keeps (P := fun u => u.status.err = s.status.err) (fun _ st h => by cases st <;> exact h)
    (fun _ _ _ h c => by cases c <;> exact h) (fun _ _ h => h) run len rfl

/-- Only the recording writes ERR and ERR_CMD, no command's rule does. -/
theorem CommandEnd.error_kept {s t : State} {i : Instr} (h : CommandEnd s i t) :
    t.status.err = s.status.err ∧ t.errCmd = s.errCmd := by
  cases h with
  | unchanged | xRes | acc | csumRes => exact ⟨rfl, rfl⟩
  | invalidated st => cases st <;> exact ⟨rfl, rfl⟩
  | committed commit => cases commit <;> exact ⟨rfl, rfl⟩
  | decodeFailed len run => exact ⟨runStages_err run len, runStages_errCmd run len⟩
  | decodeDone len run => exact ⟨runStages_err run len, runStages_errCmd run len⟩

/-- Settles O27: the step is a rule's end and its recording, and the rule itself keeps ERR and ERR_CMD. -/
theorem everyCompletionIsRecorded : Obligations.EveryCompletionIsRecorded := by
  unfold Obligations.EveryCompletionIsRecorded
  intro s u c moves
  obtain ⟨r, recorded, i, ends⟩ := step_records moves
  obtain ⟨busy, done, pending⟩ := r.complete_idle c
  refine ⟨r.complete c, recorded, busy, done, pending, ?_⟩
  obtain ⟨-, -, rfl⟩ := moves
  cases r with
  | done t => exact .inl ⟨rfl, ends.error_kept⟩
  | failed e t => exact .inr ⟨⟨e, rfl, e.code_ne_zero⟩, rfl, rfl⟩

/-! ### How a command fails (R301, R304) -/

/-- The commands that the table of R301 lists for an error. -/
def CmdError.RaisedBy (e : CmdError) (i : Instr) : Prop :=
  match e with
  | .missingValue => i = .xNib ∨ i = .xBit
  | .outOfRange => i = .xNib ∨ i = .xBit ∨ (∃ k, i = .csAddr k) ∨ i = .decTcp ∨ i = .decodeFrame
  | .oddLength => ∃ k, i = .csAddr k
  | .notIpPacket => i = .decEth ∨ i = .decodeFrame
  | .notTcpPacket => i = .decIp ∨ i = .decodeFrame
  | .malformedInput => i = .decEth ∨ i = .decIp ∨ i = .decTcp ∨ i = .decodeFrame
  | .illegalCommand => False
  | .notDecoded => i = .decIp ∨ i = .decTcp ∨ i = .phBuild ∨ i = .csAddph ∨ i = .chkIp ∨ i = .chkTcp
  | .badOperand => i = .xNib ∨ i = .xBit ∨ (∃ k, i = .csAddr k) ∨ i = .decEth ∨ i = .decIp ∨ i = .decTcp ∨
      i = .chkIp ∨ i = .chkTcp ∨ i = .decodeFrame

/-- What a command other than DECODE may leave of `s` when it fails: `s`, or `s` with an invalidation set cleared. A
failing DECODE leaves what its stages have written. -/
def State.FailureLeaves (s : State) (i : Instr) (u : State) : Prop :=
  i = .decodeFrame ∨ u = s ∨ ∃ st, u = s.invalidate st

/-- The rule of command `i`, begun in `s`, fails only with an error that the table lists for `i`, and in a state that
R304 lets it leave. -/
def Result.FailsAs (r : Result) (i : Instr) (s : State) : Prop :=
  ∀ e u, r = .failed e u → e.RaisedBy i ∧ s.FailureLeaves i u

section
variable {i : Instr} {s : State}

theorem Result.FailsAs.done (t : State) : (Result.done t).FailsAs i s := by
  intro e u h
  cases h

theorem Result.FailsAs.failed {e : CmdError} {u : State} (listed : e.RaisedBy i) (leaves : s.FailureLeaves i u) :
    (Result.failed e u).FailsAs i s := by
  rintro _ _ ⟨⟩
  exact ⟨listed, leaves⟩

theorem Result.FailsAs.afterChecks {checks : List (Bool × CmdError)} {u : State} {r : Result}
    (listed : ∀ check ∈ checks, check.2.RaisedBy i) (leaves : s.FailureLeaves i u) (rest : r.FailsAs i s) :
    (Result.afterChecks checks u r).FailsAs i s := by
  induction checks with
  | nil => exact rest
  | cons check checks ih =>
    obtain ⟨first, others⟩ := List.forall_mem_cons.mp listed
    rw [Result.afterChecks_cons]
    split
    · exact .failed first leaves
    · exact ih others

/-- A rule with the one check of a valid bit. -/
theorem Result.FailsAs.validCheck {valid : Bool} {u t : State} (listed : CmdError.notDecoded.RaisedBy i)
    (leaves : s.FailureLeaves i u) :
    Result.FailsAs (if valid = false then .failed .notDecoded u else .done t) i s := by
  split
  · exact .failed listed leaves
  · exact .done t

theorem Result.FailsAs.frameLenCheck {body : State → Result} (listed : CmdError.badOperand.RaisedBy i)
    (rule : (body s).FailsAs i s) : (checkFrameLen body s).FailsAs i s := by
  obtain ⟨-, check⟩ | ⟨-, check⟩ := checkFrameLen_cases body s
  · rw [check]
    exact .failed listed (.inr (.inl rfl))
  · rw [check]
    exact rule

/-- The rule of a layer decoder: the frame-length check, and then the ordered checks with its invalidation set
cleared. -/
theorem Result.FailsAs.layer {body : State → Result} {checks : List (Bool × CmdError)} {st : Stage} {t : State}
    (rule : body s = Result.afterChecks checks (s.invalidate st) (.done t))
    (listed : ∀ check ∈ (s.frameTooLong, .badOperand) :: checks, check.2.RaisedBy i) :
    (checkFrameLen body s).FailsAs i s := by
  obtain ⟨tooLong, others⟩ := List.forall_mem_cons.mp listed
  refine .frameLenCheck tooLong ?_
  rw [rule]
  exact .afterChecks others (.inr (.inr ⟨st, rfl⟩)) (.done t)

theorem Result.FailsAs.andThen {r : Result} {next : State → Result} (rule : r.FailsAs i s)
    (rest : ∀ t, (next t).FailsAs i s) : (r.andThen next).FailsAs i s := by
  cases r with
  | done t => exact rest t
  | failed e u => exact rule

end

/-- The checks of the valid bits pass inside DECODE, so no stage of it raises NotDecoded (R261). -/
theorem decodeBody_failsAs (s : State) : (decodeBody s).FailsAs .decodeFrame s := by
  have leaves (u : State) : s.FailureLeaves .decodeFrame u := .inl rfl
  rw [decodeBody, runStages_order_invalidate, runStages_order_eq, runStages_sums rfl rfl]
  refine .andThen (.afterChecks ?eth (leaves _) (.afterChecks ?ip (leaves _) (.afterChecks ?tcp (leaves _) (.done _))))
    fun t => .done _
  case eth => simp [State.ethChecks, CmdError.RaisedBy]
  case ip => simp [State.headerChecks, State.ipChecks, CmdError.RaisedBy]
  case tcp => simp [State.segmentChecks, State.tcpChecks, CmdError.RaisedBy]

/-- Every command is the recording of a rule whose failures are those of the table. -/
theorem exec_failsAs (i : Instr) (s : State) :
    ∃ r : Result, exec i s = .next (r.complete (encode i)) ∧ r.FailsAs i s := by
  have unchanged : s.FailureLeaves i s := .inr (.inl rfl)
  have invalidated (st : Stage) : s.FailureLeaves i (s.invalidate st) := .inr (.inr ⟨st, rfl⟩)
  have rangeChecks (limit total : Nat) (h : i = .xNib ∨ i = .xBit) :
      ∀ check ∈ s.rangeChecks limit total, check.2.RaisedBy i := by
    rcases h with rfl | rfl <;> simp [State.rangeChecks, CmdError.RaisedBy]
  cases i with
  | nop | csClr | csAddw | csFin => exact ⟨_, rfl, .done _⟩
  | xNib => exact ⟨_, exec_xNib_eq s, .afterChecks (rangeChecks _ _ (.inl rfl)) unchanged (.done _)⟩
  | xBit => exact ⟨_, exec_xBit_eq s, .afterChecks (rangeChecks _ _ (.inr rfl)) unchanged (.done _)⟩
  | decEth =>
    exact ⟨_, rfl, .layer (decEthBody_eq_afterChecks s) (by simp [State.ethChecks, CmdError.RaisedBy])⟩
  | decIp =>
    exact ⟨_, rfl, .layer (decIpBody_eq_afterChecks s) (by simp [State.ipChecks, CmdError.RaisedBy])⟩
  | decTcp =>
    exact ⟨_, rfl, .layer (decTcpBody_eq_afterChecks s) (by simp [State.tcpChecks, CmdError.RaisedBy])⟩
  | csAddr skip =>
    have word : (if skip then 0x00000122#32 else 0x00000022#32) = encode (.csAddr skip) := by cases skip <;> rfl
    refine ⟨_, (exec_csAddr_eq skip s).trans (congrArg (finish · _) word), .afterChecks ?_ unchanged (.done _)⟩
    simp [State.addrChecks, CmdError.RaisedBy]
  | csAddph => exact ⟨_, rfl, .validCheck (by simp [CmdError.RaisedBy]) unchanged⟩
  | phBuild => exact ⟨_, rfl, .validCheck (by simp [CmdError.RaisedBy]) (invalidated .phBuild)⟩
  | chkIp =>
    refine ⟨_, rfl, .frameLenCheck (by simp [CmdError.RaisedBy]) ?_⟩
    rw [chkIpBody_eq_ite]
    exact .validCheck (by simp [CmdError.RaisedBy]) (invalidated _)
  | chkTcp =>
    refine ⟨_, rfl, .frameLenCheck (by simp [CmdError.RaisedBy]) ?_⟩
    rw [chkTcpBody_eq_ite]
    exact .validCheck (by simp [CmdError.RaisedBy]) (invalidated _)
  | decodeFrame => exact ⟨_, rfl, .frameLenCheck (by simp [CmdError.RaisedBy]) (decodeBody_failsAs s)⟩

/-- A command that completes has succeeded, or failed as the table lets it. -/
theorem exec_outcome {i : Instr} {s t : State} (h : exec i s = .next t) :
    t.status.errCode = 0#4 ∨
    ∃ e u, t = u.completeError (encode i) e ∧ e.RaisedBy i ∧ s.FailureLeaves i u := by
  obtain ⟨r, completes, fails⟩ := exec_failsAs i s
  obtain rfl : r.complete (encode i) = t := Host.Outcome.next.inj (completes.symm.trans h)
  cases r with
  | done u => exact .inl rfl
  | failed e u => exact .inr ⟨e, u, rfl, fails e u rfl⟩

/-- Settles O28: the code of an error stands with the commands listed for it. -/
theorem commandsRaiseOnlyTheirErrors : Obligations.CommandsRaiseOnlyTheirErrors := by
  unfold Obligations.CommandsRaiseOnlyTheirErrors
  intro i s t h
  obtain success | ⟨e, u, rfl, listed, -⟩ := exec_outcome h
  · exact .inl success
  · refine .inr ?_
    cases e with
    | missingValue => exact .inl ⟨rfl, listed⟩
    | outOfRange => exact .inr (.inl ⟨rfl, listed⟩)
    | oddLength => exact .inr (.inr (.inl ⟨rfl, listed⟩))
    | notIpPacket => exact .inr (.inr (.inr (.inl ⟨rfl, listed⟩)))
    | notTcpPacket => exact .inr (.inr (.inr (.inr (.inl ⟨rfl, listed⟩))))
    | malformedInput => exact .inr (.inr (.inr (.inr (.inr (.inl ⟨rfl, listed⟩)))))
    | illegalCommand => exact listed.elim
    | notDecoded => exact .inr (.inr (.inr (.inr (.inr (.inr (.inl ⟨rfl, listed⟩))))))
    | badOperand => exact .inr (.inr (.inr (.inr (.inr (.inr (.inr ⟨rfl, listed⟩))))))

/-- Settles O30: an invalidation set and the recording hold no result register. -/
theorem failingCommandsWriteNoResult : Obligations.FailingCommandsWriteNoResult := by
  unfold Obligations.FailingCommandsWriteNoResult
  intro i s t notDecode h failed
  obtain success | ⟨e, u, rfl, -, leaves⟩ := exec_outcome h
  · exact absurd success failed
  · obtain decode | rfl | ⟨st, rfl⟩ := leaves
    · exact absurd decode notDecode
    · exact Result.complete_registers (.failed e u) _
    · exact Result.complete_registers (.failed e (s.invalidate st)) _

/-! ### The interrupt output (R319, R320) -/

theorem State.irq_of_done {t : State} (h : t.status.done = true) : t.irq = t.ctrlIE := by
  rw [State.irq, h, Bool.and_true]

theorem State.irq_of_not_done {t : State} (h : t.status.done = false) : t.irq = false := by
  rw [State.irq, h, Bool.and_false]

/-- The engine does not write IE (R33). -/
theorem step_completion_ctrlIE {s u : State} {c : Word} (moves : s.engineDoes c u) {r : Result} {i : Instr}
    (ends : CommandEnd u i r.state) : (r.complete c).ctrlIE = s.ctrlIE := by
  obtain ⟨-, -, rfl⟩ := moves
  obtain ⟨⟨-, ctrlIE, -⟩, -⟩ := State.fields_of_untouched ((r.complete_untouched c).trans ends.untouched)
  exact ctrlIE

/-- While BUSY is 0 a write of CMD is accepted (R346). -/
theorem step_accept {s u : State} {c : Word} (h : s.hostDoes (.w32 0x00C c) u) (idle : u.status.busy = false) :
    step s = .next (u.accept c) := by
  rw [step_writeReg .cmd h, State.writeReg, State.writeCmd, if_neg (by simp [idle])]

/-- Settles O52: each of the four moves is one state, and its DONE and IE are seen in it. -/
theorem interruptFollowsDone : Obligations.InterruptFollowsDone := by
  unfold Obligations.InterruptFollowsDone
  intro s u t h
  have eq_of_step {t' : State} (h' : step s = .next t') : t = t' := Host.Outcome.next.inj (h.symm.trans h')
  refine ⟨rfl, fun c moves => ?_, fun v moves clears => ?_, fun c moves idle => ?_, fun v moves noReset => ?_⟩
  · obtain ⟨r, recorded, i, ends⟩ := step_records moves
    obtain ⟨-, done, -⟩ := r.complete_idle c
    rw [eq_of_step recorded, State.irq_of_done done, step_completion_ctrlIE moves ends]
  · rw [eq_of_step (step_write_status moves)]
    exact State.irq_of_not_done (by simp [clears])
  · obtain ⟨status, -⟩ := State.hostDoes_same moves
    rw [eq_of_step (step_accept moves (by rw [status, idle]))]
    exact State.irq_of_not_done rfl
  · rw [eq_of_step (step_write_ctrl moves noReset)]
    obtain ⟨-, rest, -, rfl⟩ := moves
    exact ⟨rfl, rfl⟩

end Sys2Proof.Machine
end

section
/-! The family `70_reset_and_hazards.md`: the resets (R341), the acceptance of a command (R346, R348) and its completion
(R347), the latter within the turns that are left (R353). -/

namespace Sys2Proof.Machine

/-! ### The resets (R341) -/

/-- Settles O40: the registers of both resets are those of a power-on, whose reads are the reset values. -/
theorem resetLeavesEveryRegisterAtItsResetValue : Obligations.ResetLeavesEveryRegisterAtItsResetValue := by
  unfold Obligations.ResetLeavesEveryRegisterAtItsResetValue
  rintro s t (rfl | rfl | rfl)
  · exact ⟨fun _ => State.read32_of_reset s.softReset_readReg, rfl, rfl⟩
  · exact ⟨fun _ => State.read32_of_reset s.powerOnReset_readReg, rfl, rfl⟩
  · exact ⟨fun _ => State.read32_of_reset fun _ => rfl, rfl, rfl⟩

/-- Settles O32: a power-on with no access and no turn to come is sound, and the default size is admitted. -/
theorem powerOnStateIsSound : Obligations.PowerOnStateIsSound := by
  unfold Obligations.PowerOnStateIsSound
  have powerOn (p : Config.Params) (wf : p.wf = true) : (State.powerOn p).Sound := .powerOn wf [] []
  have default : Config.Params.default.wf = true := by decide
  exact ⟨powerOn _ default, powerOn⟩

/-! ### Acceptance (R346, R348) -/

/-- While BUSY is 1 a write of CMD is dropped, and sets CMD_OVR (R348). -/
theorem step_cmd_dropped {s u : State} {c : Word} (h : s.hostDoes (.w32 0x00C c) u) (busy : u.status.busy = true) :
    step s = .next (u.withStatus { u.status with cmdOvr := true }) := by
  rw [step_writeReg .cmd h, State.writeReg, State.writeCmd, if_pos busy]

/-- Settles O42: BUSY alone decides between acceptance and CMD_OVR, and taking the input does not change it. -/
theorem cmdWriteIsAcceptedOrDropped : Obligations.CmdWriteIsAcceptedOrDropped := by
  unfold Obligations.CmdWriteIsAcceptedOrDropped
  intro s u c moves
  obtain ⟨status, -⟩ := State.hostDoes_same moves
  rw [← status]
  exact ⟨step_accept moves, step_cmd_dropped moves⟩

/-! ### Completion (R347, R353) -/

/-- Settles O1: the step is the completion of the pending word, whose decoding is known. -/
theorem stepRunsTheDecodedCommand : Obligations.StepRunsTheDecodedCommand := by
  unfold Obligations.StepRunsTheDecodedCommand
  intro s u c i moves command
  rw [step_of_engineDoes moves, completeCommand, command]

/-- A command has completed, and neither agent has anything left to do. -/
structure State.AtRest (s : State) : Prop where
  inputs : s.inputs = []
  pending : s.pending = none
  idle : s.status.busy = false
  done : s.status.done = true

theorem State.not_hostDoes {s : State} (inputs : s.inputs = []) (a : Input) (u : State) : ¬ s.hostDoes a u := by
  rintro ⟨-, rest, more, -⟩
  simp [inputs] at more

/-- With no input left, a step in which the engine completes nothing takes a turn and does nothing else (R344). -/
theorem step_pass {s : State} (inputs : s.inputs = []) (waits : ∀ c u, ¬ s.engineDoes c u) :
    step s = .next { s with turns := s.turns.tail } := by
  obtain ⟨c, u, moves, -⟩ | ⟨a, u, moves, -⟩ | pass := step_cases s
  · exact absurd moves (waits c u)
  · exact absurd moves (State.not_hostDoes inputs a u)
  · exact pass

/-- The engine's move leaves the block at rest: it records the completion and does not touch the host's inputs. -/
theorem State.engineDoes.step_atRest {s u : State} {c : Word} (moves : s.engineDoes c u) (inputs : s.inputs = []) :
    ∃ t, step s = .next t ∧ t.AtRest := by
  obtain ⟨r, recorded, i, ends⟩ := step_records moves
  obtain ⟨idle, done, pending⟩ := r.complete_idle c
  obtain ⟨-, -, kept, -⟩ := State.fields_of_untouched ((r.complete_untouched c).trans ends.untouched)
  obtain ⟨-, -, rfl⟩ := moves
  exact ⟨_, recorded, kept.trans inputs, pending, idle, done⟩

theorem State.AtRest.step {s : State} (h : s.AtRest) : ∃ t, step s = .next t ∧ t.AtRest := by
  have waits (c : Word) (u : State) : ¬ s.engineDoes c u := by
    rintro ⟨-, pending, -⟩
    simp [h.pending] at pending
  exact ⟨_, step_pass h.inputs waits, h.inputs, h.pending, h.idle, h.done⟩

/-- A block at rest stays so, however many steps follow. -/
theorem State.AtRest.run {s : State} (h : s.AtRest) (k : Nat) :
    ∃ t, Host.Core.run Sys2Proof.core k s = .next t ∧ t.AtRest := by
  induction k generalizing s with
  | zero => exact ⟨s, rfl, h⟩
  | succ k ih =>
    obtain ⟨u, next, rest⟩ := h.step
    rw [run_succ next]
    exact ih rest

/-- With no input left, a pending command is completed, or the host has taken one of the turns. -/
theorem step_of_pending {s : State} {c : Word} (pending : s.pending = some c) (inputs : s.inputs = []) :
    (∃ t, step s = .next t ∧ t.AtRest) ∨
    ∃ later, s.turns = .host :: later ∧ step s = .next { s with turns := later } := by
  match turns : s.turns with
  | [] => exact .inl (State.engineDoes.step_atRest ⟨.inr turns, pending, rfl⟩ inputs)
  | .engine :: later => exact .inl (State.engineDoes.step_atRest ⟨.inl (by simp [turns]), pending, rfl⟩ inputs)
  | .host :: later =>
    have waits (c : Word) (u : State) : ¬ s.engineDoes c u := by
      rintro ⟨turn, -⟩
      simp [turns] at turn
    have pass := step_pass inputs waits
    rw [turns] at pass
    exact .inr ⟨later, rfl, pass⟩

/-- A pending command is completed by the first turn of the engine, or when the turns are used up (log 4); the block stays
at rest in the steps that are left then. -/
theorem run_completes (turns : List Agent) {s : State} {c : Word} (left : s.turns = turns)
    (pending : s.pending = some c) (inputs : s.inputs = []) :
    ∃ t, Host.Core.run Sys2Proof.core (turns.length + 1) s = .next t ∧ t.AtRest := by
  induction turns generalizing s with
  | nil =>
    obtain ⟨t, completed, rest⟩ | ⟨later, more, -⟩ := step_of_pending pending inputs
    · exact ⟨t, run_succ completed 0, rest⟩
    · simp [left] at more
  | cons agent turns ih =>
    obtain ⟨u, completed, rest⟩ | ⟨later, more, pass⟩ := step_of_pending pending inputs
    · rw [run_succ completed]
      exact rest.run _
    · obtain ⟨-, rfl⟩ := List.cons.inj (left.symm.trans more)
      rw [run_succ pass]
      exact ih rfl pending inputs

/-- Settles O6: by induction on the turns, each of which the engine uses for the completion or the host lets pass. -/
theorem pendingCommandCompletesWithinItsTurns : Obligations.PendingCommandCompletesWithinItsTurns := by
  unfold Obligations.PendingCommandCompletesWithinItsTurns
  intro s c pending inputs
  obtain ⟨t, ran, rest⟩ := run_completes s.turns rfl pending inputs
  exact ⟨t, ran, rest.pending, rest.idle, rest.done⟩

end Sys2Proof.Machine
end
